-- ==== Sys2Proof/Word.lean ====
section
/-! DEFINITION. The word types of CANTXSEQ: register and bus words (R62), payload bytes (R21), mailbox
indexes (R6, R25) and the command record as bits on the command port (R91, log 1). Everything is unsigned (R9). -/

namespace Sys2Proof

/-- A register value and a bus word: XLEN = 32 bits (R7, R62). -/
abbrev Word := BitVec 32

/-- One payload byte (R21). -/
abbrev Byte := BitVec 8

/-- A mailbox index 0, 1 or 2 (R6 NMB = 3; the latch MB of R25 takes these three values). -/
abbrev MailboxIndex := Fin 3

/-- A command record as the command port carries it (R91). The spec defines no packing; the widest format,
CMD-N, has 134 bits. DESIGN CHOICE, safe: log 1 says which bit holds which field. -/
abbrev CmdRecord := BitVec 134

end Sys2Proof
end

