-- ==== Sys2Proof/Syntax.lean ====
section
/-! DEFINITION. The nine commands of CANTXSEQ (R91), one constructor per row of spec/opcode_table.json, and the
operand records they carry (R21, R92). -/

namespace Sys2Proof

/-- Eight byte lanes `data[0..7]` (R21, R92). -/
structure Payload where
  b0 : Byte
  b1 : Byte
  b2 : Byte
  b3 : Byte
  b4 : Byte
  b5 : Byte
  b6 : Byte
  b7 : Byte
deriving DecidableEq, Repr, Inhabited

/-- A raw Frame record with the five fields of R21. It is any bit pattern; `RawFrame.wf` says which of them are
well formed (R22). -/
structure RawFrame where
  id : Word
  ext : Bool
  rtr : Bool
  len : BitVec 4
  data : Payload
deriving DecidableEq, Repr, Inhabited

/-- The commands (R91), with the operands of their format (R92): CMD-N for FRAME_NEW, CMD-T for BTR_ENCODE and
CONFIGURE, CMD-F for the others. -/
inductive Instr where
  /-- FRAME_NEW, op 0x1 (R131): identifier, slice length, byte lanes, remote flag, extended flag. -/
  | frameNew (id n : Word) (data : Payload) (remote extended : Bool)
  /-- FRAME_ID, op 0x2 (R133). -/
  | frameId (frame : RawFrame)
  /-- FRAME_IS_EXTENDED, op 0x3 (R134). -/
  | frameIsExtended (frame : RawFrame)
  /-- FRAME_IS_RTR, op 0x4 (R135). -/
  | frameIsRtr (frame : RawFrame)
  /-- FRAME_DATA, op 0x5 (R136). -/
  | frameData (frame : RawFrame)
  /-- SERIALIZE, op 0x6 (R138). -/
  | serialize (frame : RawFrame)
  /-- BTR_ENCODE, op 0x7 (R165): clock frequency `F` and baud rate `B`. -/
  | btrEncode (clock baud : Word)
  /-- CONFIGURE, op 0x8 (R170): clock frequency `F` and baud rate `B`. -/
  | configure (clock baud : Word)
  /-- TRANSMIT, op 0x9 (R190). -/
  | transmit (frame : RawFrame)
deriving DecidableEq, Repr, Inhabited

end Sys2Proof
end

