-- ==== Sys2Proof/Config.lean ====
section
/-! DEFINITION. The configuration record of the model (R6, R7): the shape of the parameters and of LAYOUT, whose
values stand in Machine/Params.lean; the moves of the agents around the block (R12); and the free values. -/

namespace Sys2Proof

/-- A bit field of a register: its lowest bit and its width (R8, R40 to R47). -/
structure Field where
  lsb : Nat
  width : Nat
deriving DecidableEq, Repr

/-- The parameters the source fixes (R6) and those it leaves open (R7). -/
structure Params where
  /-- `NMB`, number of mailboxes (R6). -/
  nmb : Nat
  /-- `MAXLEN`, largest payload length (R6). -/
  maxLen : Nat
  /-- `STD_BOUND`: a standard frame needs `id < STD_BOUND` (R6, strict by C1). -/
  stdBound : Nat
  /-- `EXT_BOUND`: an extended frame needs `id < EXT_BOUND` (R6, strict by C1). -/
  extBound : Nat
  /-- `STD_BITS`, width of a standard identifier (R6). -/
  stdBits : Nat
  /-- `EXT_BITS`, width of an extended identifier (R6). -/
  extBits : Nat
  /-- `TS1`, time segment 1 in quanta (R6, R160). -/
  ts1 : Nat
  /-- `TS2`, time segment 2 in quanta (R6, R160). -/
  ts2 : Nat
  /-- `SJW`, synchronisation jump width in quanta (R6, R160). -/
  sjw : Nat
  /-- `PRESC_BOUND`: the prescaler must be below it (R6, strict by C3). -/
  prescBound : Nat
  /-- `XLEN`, width of a register and of a bus access (R7, D5). -/
  xlen : Nat
  /-- `FW`, width of the clock operand (R7, D13). -/
  fw : Nat
  /-- `BW`, width of the baud-rate operand (R7, D13). -/
  bw : Nat
  /-- `NW`, width of the slice-length operand (R7, D29). -/
  nw : Nat
  /-- `BASE`, byte address of the register block (R7, R66). -/
  base : Nat
  /-- `PAD`, the byte FRAME_NEW puts beyond the slice (R7, D10). -/
  pad : Byte
  /-- `POLL_BOUND`, whose only defined value is `none`: unbounded (R7, D18). -/
  pollBound : Option Nat
deriving DecidableEq, Repr

/-- The parameter LAYOUT (R7): byte offsets, bit fields and reset words of the registers (R40 to R48). -/
structure Layout where
  mcrOffset : Nat
  msrOffset : Nat
  tsrOffset : Nat
  btrOffset : Nat
  /-- Offsets of the four registers of mailbox 0 (R44 to R47, R49). -/
  tiOffset : Nat
  tdtOffset : Nat
  tdlOffset : Nat
  tdhOffset : Nat
  /-- Distance between two mailboxes (R49). -/
  mailboxStride : Nat
  /-- The fields of MCR (R40); the two reserved spans, 14:8 and 31:17, read as 0. -/
  inrq : Field
  sleep : Field
  txfp : Field
  rflm : Field
  nart : Field
  awum : Field
  abom : Field
  ttcm : Field
  mcrReservedLow : Field
  reset : Field
  dbf : Field
  mcrReservedHigh : Field
  /-- The fields of MSR (R41). -/
  inak : Field
  slak : Field
  erri : Field
  wkui : Field
  slaki : Field
  txm : Field
  rxm : Field
  samp : Field
  rx : Field
  /-- `RQCP0`, `TXOK0`, `ALST0`, `TERR0` and `ABRQ0` of TSR; mailbox m's stand `tsrStride * m` bits higher (R42). -/
  rqcp0 : Field
  txok0 : Field
  alst0 : Field
  terr0 : Field
  abrq0 : Field
  tsrStride : Nat
  /-- `TSR.CODE` (R42). -/
  code : Field
  /-- `TSR.TME0` to `TSR.TME2` as one field, TMEm its bit m (R42). -/
  tme : Field
  /-- `TSR.LOW0` to `TSR.LOW2` as one field, LOWm its bit m (R42). -/
  low : Field
  /-- The fields of BTR (R43). -/
  brp : Field
  ts1 : Field
  ts2 : Field
  sjw : Field
  lbkm : Field
  silm : Field
  /-- The fields of `TI[m]R` (R44). -/
  txrq : Field
  rtr : Field
  ide : Field
  exidl : Field
  stid : Field
  /-- `EXID29`, the spec's name for STID and EXIDL taken as one field (R44). -/
  exid29 : Field
  /-- The fields of `TDT[m]R` (R45). -/
  dlc : Field
  tgt : Field
  time : Field
  /-- `DATA0` of `TDL[m]R` and `DATA4` of `TDH[m]R`; the following lanes stand 8 bits higher each (R46, R47, R60). -/
  lane0 : Field
  /-- Reset words (R48). -/
  mcrReset : Word
  msrReset : Word
  tsrReset : Word
  btrReset : Word
deriving DecidableEq, Repr

/-- The latches of R25 as one record: what a block reset leaves in them is unspecified (R29, U7), so the move
that asserts block reset carries the values. -/
structure Latches where
  fl : RawFrame
  tsrv : Word
  mb : MailboxIndex
  pre : Word
  mcrv : Word
deriving DecidableEq, Repr, Inhabited

/-- What HOST can do to the block (R275). Reading results and status changes nothing and is no move. -/
inductive HostMove where
  /-- Present a command record on the command port. -/
  | offer (record : CmdRecord)
  /-- Assert the block-reset input (R29); the argument is what the unspecified latches then hold (U7). -/
  | blockReset (unspecified : Latches)
deriving DecidableEq, Repr, Inhabited

/-- The steps of PERIPH (R50 to R56). -/
inductive PeriphMove where
  /-- `Complete(m)` (R52): `outcome` is what `TERRm, ALSTm, TXOKm, RQCPm` take (bit 0 is RQCPm); the words are
  what the mailbox registers hold afterwards, which R52 leaves unspecified but for TXRQ. -/
  | complete (m : MailboxIndex) (outcome : BitVec 4) (ti tdt tdl tdh : Word)
  /-- The wake acknowledge `SLAK <- 0` (R53). -/
  | ackWake
  /-- The initialization-entry acknowledge `INAK <- 1` (R54). -/
  | ackInit
  /-- The initialization-exit acknowledge `INAK <- 0` (R54). -/
  | ackExit
  /-- The bits of MSR and TSR that no rule names take any value (U9). -/
  | drift (msr tsr : Word)
  /-- PERIPH changes `TDT[m]R.TIME` on its own (R45): it takes the low 16 bits of `time`. The spec names no moment for
  it, but R73 rules it out between TRANSMIT's status read and its last write (`Machine.periphEnabled`); the model allows
  every other turn of PERIPH, whatever the mailbox's state. DESIGN CHOICE, safe (log 32). -/
  | stamp (m : MailboxIndex) (time : Word)
deriving DecidableEq, Repr, Inhabited

/-- Which agent moves next, and how (R12). BUSCTL only reacts inside a step of SEQ (R57). -/
inductive Turn where
  | seq
  | host (move : HostMove)
  | periph (move : PeriphMove)
deriving DecidableEq, Repr, Inhabited

namespace Config

/-- FREE VALUE (log 2): the agent move taken when `State.turns` is empty, the n-th time. No body: the
interleaving of the agents is arbitrary (R12), and no fairness can be assumed (R52, R53, R54). -/
opaque freeTurn : Nat → Turn

/-- FREE VALUE (log 8): what a mailbox register holds after the reset pulse (R48, U8). No body. -/
opaque freeWord : Nat → Word

end Config

end Sys2Proof
end

