-- ==== Sys2Proof/Machine/Params.lean ====
section
/-! DEFINITION. The values of the parameters (R6, R7) and of the default LAYOUT (R40 to R49), and the bit-field
operations every register word is built with (R8). -/

namespace Sys2Proof.Machine

/-- R6 (fixed by the source) and the defaults of R7. PRESUMED, unsafe: BASE is general knowledge (log 17);
DESIGN CHOICE, unsafe: PAD (log 18) and the widths and POLL_BOUND (log 19) are at the spec's defaults. -/
def params : Params where
  nmb := 3
  maxLen := 8
  stdBound := 0x7FF
  extBound := 0x1FFFFFFF
  stdBits := 11
  extBits := 29
  ts1 := 13
  ts2 := 2
  sjw := 1
  prescBound := 512
  xlen := 32
  fw := 32
  bw := 32
  nw := 32
  base := 0x40006400
  pad := 0x00#8
  pollBound := none

/-- `QPB`, quanta per bit, `1 + TS1 + TS2` (R6, R160). -/
def quantaPerBit : Nat := 1 + params.ts1 + params.ts2

/-- The default LAYOUT (R40 to R49, R60). PRESUMED, unsafe: the spec marks every number general knowledge (log 17). -/
def layout : Layout where
  mcrOffset := 0x000
  msrOffset := 0x004
  tsrOffset := 0x008
  btrOffset := 0x01C
  tiOffset := 0x180
  tdtOffset := 0x184
  tdlOffset := 0x188
  tdhOffset := 0x18C
  mailboxStride := 0x10
  inrq := ⟨0, 1⟩
  sleep := ⟨1, 1⟩
  txfp := ⟨2, 1⟩
  rflm := ⟨3, 1⟩
  nart := ⟨4, 1⟩
  awum := ⟨5, 1⟩
  abom := ⟨6, 1⟩
  ttcm := ⟨7, 1⟩
  mcrReservedLow := ⟨8, 7⟩
  reset := ⟨15, 1⟩
  dbf := ⟨16, 1⟩
  mcrReservedHigh := ⟨17, 15⟩
  inak := ⟨0, 1⟩
  slak := ⟨1, 1⟩
  erri := ⟨2, 1⟩
  wkui := ⟨3, 1⟩
  slaki := ⟨4, 1⟩
  txm := ⟨8, 1⟩
  rxm := ⟨9, 1⟩
  samp := ⟨10, 1⟩
  rx := ⟨11, 1⟩
  rqcp0 := ⟨0, 1⟩
  txok0 := ⟨1, 1⟩
  alst0 := ⟨2, 1⟩
  terr0 := ⟨3, 1⟩
  abrq0 := ⟨7, 1⟩
  tsrStride := 8
  code := ⟨24, 2⟩
  tme := ⟨26, 3⟩
  low := ⟨29, 3⟩
  brp := ⟨0, 10⟩
  ts1 := ⟨16, 4⟩
  ts2 := ⟨20, 3⟩
  sjw := ⟨24, 2⟩
  lbkm := ⟨30, 1⟩
  silm := ⟨31, 1⟩
  txrq := ⟨0, 1⟩
  rtr := ⟨1, 1⟩
  ide := ⟨2, 1⟩
  exidl := ⟨3, 18⟩
  stid := ⟨21, 11⟩
  exid29 := ⟨3, 29⟩
  dlc := ⟨0, 4⟩
  tgt := ⟨8, 1⟩
  time := ⟨16, 16⟩
  lane0 := ⟨0, 8⟩
  mcrReset := 0x00010002#32
  msrReset := 0x00000C02#32
  tsrReset := 0x1C000000#32
  btrReset := 0x01230000#32

/-- The word whose field `f` holds `v` (its low bits) and whose other bits are 0 (R8). -/
def fieldPut (f : Field) (v : Word) : Word := ((v.setWidth f.width).setWidth 32) <<< f.lsb

/-- The value of field `f` of `w`, widened with zeros (R8, R9). -/
def fieldGet (f : Field) (w : Word) : Word := (w.extractLsb' f.lsb f.width).setWidth 32

/-- The word with ones exactly in field `f`. -/
def fieldMask (f : Field) : Word := fieldPut f (BitVec.allOnes 32)

/-- `w` with every bit of field `f` set. -/
def fieldSet (f : Field) (w : Word) : Word := w ||| fieldMask f

/-- `w` with every bit of field `f` cleared. -/
def fieldClear (f : Field) (w : Word) : Word := w &&& ~~~ fieldMask f

/-- The lowest bit of field `f` of `w`: the value of a one-bit field. -/
def fieldBit (f : Field) (w : Word) : Bool := w.getLsbD f.lsb

/-- Field `f` moved `k` bits up: the same field of the next mailbox or lane. -/
def fieldShift (f : Field) (k : Nat) : Field := ⟨f.lsb + k, f.width⟩

/-- The span from field `a` up to field `b`, both included. -/
def fieldSpan (a b : Field) : Field := ⟨a.lsb, b.lsb + b.width - a.lsb⟩

/-- The number an unsigned operand of `w` bits carries on its 32-bit lane of the command port: bits at or above `w` are
none of the operand's (R7: FW, BW, NW; R9). -/
def operand (w : Nat) (v : Word) : Nat := v.toNat % 2 ^ w

/-- What a bus access of XLEN bits carries of a word (R7, R62). -/
def busWord (v : Word) : Word := (v.setWidth params.xlen).setWidth 32

/-- A flag as a word, 0 or 1 (R9 `zext_32`). -/
def flagWord (b : Bool) : Word := if b then 1#32 else 0#32

end Sys2Proof.Machine
end

