-- ==== Sys2Proof/Machine/Frame.lean ====
section
/-! DEFINITION. Well-formedness of a frame (R22), the two preconditions FRAME_NEW and the frame-operand check test
(R131, R137), and the Frame type as the well-formed raw records (R22). -/

namespace Sys2Proof

/-- `bad_id` on an identifier and a mode (R131, R137): not below the strict bound of the mode (C1). -/
def Machine.badId (ext : Bool) (id : Word) : Bool :=
  if ext then decide (Machine.params.extBound ≤ id.toNat) else decide (Machine.params.stdBound ≤ id.toNat)

/-- `bad_len` on a byte count (R131, R137): more than `MAXLEN` bytes. -/
def Machine.badLen (n : Nat) : Bool := decide (Machine.params.maxLen < n)

/-- `WF(f)` (R22): the length is at most 8 and the identifier is below its mode's bound. -/
def RawFrame.wf (f : RawFrame) : Bool := !Machine.badLen f.len.toNat && !Machine.badId f.ext f.id

/-- A Frame: a raw record that satisfies `WF` (R21, R22). Its value at `id, ext, rtr, len, data` never changes. -/
structure Frame where
  raw : RawFrame
  isWf : raw.wf = true
deriving DecidableEq, Repr

namespace Machine

/-- The byte at index `i` of the lanes, 0 beyond the last (R21, R92). -/
def payloadByte (d : Payload) (i : Nat) : Byte :=
  match i with
  | 0 => d.b0
  | 1 => d.b1
  | 2 => d.b2
  | 3 => d.b3
  | 4 => d.b4
  | 5 => d.b5
  | 6 => d.b6
  | 7 => d.b7
  | _ => 0#8

/-- The lanes `f 0, ..., f 7`. -/
def payloadOf (f : Nat → Byte) : Payload := ⟨f 0, f 1, f 2, f 3, f 4, f 5, f 6, f 7⟩

/-- All eight bytes in index order. -/
def payloadList (d : Payload) : List Byte := [d.b0, d.b1, d.b2, d.b3, d.b4, d.b5, d.b6, d.b7]

/-- The buffer FRAME_NEW fills: the slice's first `n` bytes, then PAD (R131). -/
def payloadPadded (n : Nat) (d : Payload) : Payload :=
  payloadOf fun i => if i < n then payloadByte d i else params.pad

end Machine

end Sys2Proof
end

