-- ==== Sys2Proof/Machine/State.lean ====
section
/-! DEFINITION. The state of the machine (R20): block flags, latches and phase, the ports, the peripheral registers
with the mailbox states, the bus-control bits, and three fields of the model's own; the reasons a step can stop;
and the state right after reset (R29, R261). -/

namespace Sys2Proof.Machine

/-- The sequencer phase `PH` (R26): the next external action of the block. -/
inductive Phase where
  | idle
  | halt
  | cfEn
  | cfRstA
  | cfRstD
  | cfWakeRd
  | cfWakeWr
  | cfWakePoll
  | cfInitRd
  | cfInitWr
  | cfInitPoll
  | cfBtrWr
  | cfExitRd
  | cfExitWr
  | cfExitPoll
  | txTsrRd
  | txDlcWr
  | txIdWr
  | txDlWr
  | txDhWr
  | txRqWr
deriving DecidableEq, Repr

/-- The fault codes (R220). Codes 7 to 15 are never produced (R113, U2) and have no constructor. -/
inductive FaultCode where
  | none
  | invalidFrameParameters
  | prescalerOverflow
  | prescalerZero
  | baudRateZero
  | illegalCommand
  | sequenceError
deriving DecidableEq, Repr

/-- `LASTTX` (R24): the outcome of the last TRANSMIT that completed. Kind 3 is never produced (U10). -/
inductive LastTx where
  | none
  | queued (m : MailboxIndex)
  | dropped
deriving DecidableEq, Repr

/-- The outcome value TRANSMIT presents (R94). -/
inductive TxOutcome where
  | queued (m : MailboxIndex)
  | dropped
deriving DecidableEq, Repr

/-- What the result port presents (R94). -/
inductive Result where
  /-- FRAME_NEW: the constructed frame. -/
  | frame (f : Frame)
  /-- FRAME_ID and BTR_ENCODE: 32 bits. -/
  | word (w : Word)
  /-- FRAME_IS_EXTENDED and FRAME_IS_RTR: 1 bit. -/
  | flag (b : Bool)
  /-- FRAME_DATA: a length and that many bytes. -/
  | bytes (len : BitVec 4) (data : List Byte)
  /-- SERIALIZE: the words `(TDTW, IDW, TDLW, TDHW)`. -/
  | words (tdt ti tdl tdh : Word)
  /-- CONFIGURE: nothing. -/
  | unit
  /-- TRANSMIT: the outcome. -/
  | outcome (o : TxOutcome)
deriving DecidableEq, Repr

/-- The sixteen registers the block accesses (R30). -/
inductive Reg where
  | mcr
  | msr
  | tsr
  | btr
  | ti (m : MailboxIndex)
  | tdt (m : MailboxIndex)
  | tdl (m : MailboxIndex)
  | tdh (m : MailboxIndex)
deriving DecidableEq, Repr

/-- The actions of the bus-control port (R241). -/
inductive BusAction where
  | en
  | rstAssert
  | rstDeassert
deriving DecidableEq, Repr

/-- One entry of the trace (R11): `R(NAME)=value`, `W(NAME,value)` or `BC(action)`. -/
inductive Action where
  | read (r : Reg) (v : Word)
  | write (r : Reg) (v : Word)
  | busCtl (a : BusAction)
deriving DecidableEq, Repr

/-- `MBS[m]` (R50): the two states of a mailbox the block can tell apart. -/
inductive MailboxState where
  | empty
  | pending
deriving DecidableEq, Repr

/-- One hardware mailbox (R49): its four registers and its hidden state (R50). -/
structure Mailbox where
  ti : Word
  tdt : Word
  tdl : Word
  tdh : Word
  mbs : MailboxState
deriving DecidableEq, Repr

/-- The registers of PERIPH (R30, R40 to R47) with the mailbox states. `tsr` stores TSR apart from TME0, TME1 and
TME2, which a read computes from the mailbox states, so that TMEm = 1 exactly when MBS[m] = Empty (R50). -/
structure Periph where
  mcr : Word
  msr : Word
  tsr : Word
  btr : Word
  box0 : Mailbox
  box1 : Mailbox
  box2 : Mailbox
deriving DecidableEq, Repr

/-- The whole machine (R20). -/
structure State where
  /-- `CFG` (R23): CONFIGURE has completed. -/
  cfg : Bool
  /-- `BUSY` (R23): a command has been accepted and has not ended. -/
  busy : Bool
  /-- `FAULT` (R23): a fatal fault has been raised. -/
  fault : Bool
  /-- `FCODE` (R23, R220). -/
  fcode : FaultCode
  /-- `FINFO` (R23). -/
  finfo : Word
  /-- `LASTTX` (R24). -/
  lastTx : LastTx
  /-- `PH` (R26). -/
  ph : Phase
  /-- `FL` (R25): the frame TRANSMIT was given. -/
  fl : RawFrame
  /-- `TSRV` (R25): the value read from TSR. -/
  tsrv : Word
  /-- `MB` (R25): the selected mailbox. -/
  mb : MailboxIndex
  /-- `PRE` (R25): the prescaler. -/
  pre : Word
  /-- `MCRV` (R25): the value read from MCR. -/
  mcrv : Word
  /-- The command port (R90): the record HOST presents until it is accepted (R275). -/
  cmd : Option CmdRecord
  /-- The result port (R94): the result of the last command that completed, until the next acceptance (log 22). -/
  result : Option Result
  /-- The peripheral registers and mailbox states (R30, R50). -/
  periph : Periph
  /-- `BC.en` (R57). -/
  bcEn : Bool
  /-- `BC.rst` (R57). -/
  bcRst : Bool
  /-- The model's own: the external actions so far, newest first (R11, log 4). -/
  trace : List Action
  /-- The model's own: the agents' moves to come, next first (R12, log 2). -/
  turns : List Turn
  /-- The model's own: how many free values have been used (log 8). -/
  draws : Nat
deriving DecidableEq, Repr

/-- Why a step stops although a command had an effect to have. Each is a fault of the model, not of the hardware
(spec/93 U4, U5): the block never gets there from a state that meets `Safety.Invariant`. -/
inductive Fault where
  /-- Raised by a bus write to a register of a Pending mailbox (R56, U4). Safe (log 10). -/
  | writeToPendingMailbox (m : MailboxIndex)
  /-- Raised by a bus access while BC.en = 0 or BC.rst = 1 (R57, U5). Safe (log 11). -/
  | busNotReady
  /-- Raised by a bus access at an address that is none of the sixteen (R66, R67). Safe (log 12). -/
  | unmappedAddress (address : Word)
deriving DecidableEq, Repr

/-- Why an instruction has no meaning. -/
inductive Refusal where
  /-- Raised by an arm of `exec` for an instruction not modelled yet. Safe. No arm raises it. -/
  | notModelled (mnemonic : String)
  /-- Raised by a poll of CONFIGURE in a configuration that bounds polls. The spec defines no POLL_BOUND but `none` and no
  action for a poll that gives up (R7, R175, D18). Safe, and never raised: `params` has none (log 19). -/
  | boundedPoll (bound : Nat)
deriving DecidableEq, Repr

/-- A mailbox as `State.reset` holds it: Empty (R261); the register bits beyond TXRQ, which the spec leaves
unspecified, are 0. DESIGN CHOICE, unsafe (log 6). -/
def mailboxReset : Mailbox := ⟨0#32, 0#32, 0#32, 0#32, .empty⟩

/-- The machine right after reset (R29, R261, R262). The flags, LASTTX and PH are the spec's. The latches are 0
(DESIGN CHOICE, unsafe, log 5); the peripheral registers hold their reset words (PRESUMED, unsafe, log 6); BC.en and
BC.rst are 0 (DESIGN CHOICE, unsafe, log 7); the ports are empty (log 22). -/
def State.reset : State where
  cfg := false
  busy := false
  fault := false
  fcode := .none
  finfo := 0#32
  lastTx := .none
  ph := .idle
  fl := ⟨0#32, false, false, 0#4, ⟨0#8, 0#8, 0#8, 0#8, 0#8, 0#8, 0#8, 0#8⟩⟩
  tsrv := 0#32
  mb := 0
  pre := 0#32
  mcrv := 0#32
  cmd := none
  result := none
  periph := ⟨layout.mcrReset, layout.msrReset, layout.tsrReset, layout.btrReset, mailboxReset, mailboxReset, mailboxReset⟩
  bcEn := false
  bcRst := false
  trace := []
  turns := []
  draws := 0

end Sys2Proof.Machine
end

