-- ==== Sys2Proof/Machine/Operands.lean ====
section
/-! DEFINITION. The pure functions on operands: the frame-operand check (R137), FRAME_NEW (R131), the register words
(R60, R100 to R106) and the prescaler arithmetic (R160 to R162). -/

namespace Sys2Proof.Machine

/-- The argument of `raise` (R10, R230): a fault code and its information word. -/
structure FaultRaise where
  code : FaultCode
  info : Word
deriving DecidableEq, Repr

/-- `InvalidFrameParameters({30'b0, bad_len, bad_id})` (R131, R221). -/
def invalidFrame (badLen badId : Bool) : FaultRaise where
  code := .invalidFrameParameters
  info := 0#30 ++ BitVec.ofBool badLen ++ BitVec.ofBool badId

/-- `SequenceError(zext_32(op))` (R228). -/
def sequenceError (op : BitVec 4) : FaultRaise := ⟨.sequenceError, op.setWidth 32⟩

/-- `IllegalCommand(zext_32(op))` (R224). -/
def illegalCommand (op : BitVec 4) : FaultRaise := ⟨.illegalCommand, op.setWidth 32⟩

/-- The frame-operand check (R137): the frame, or InvalidFrameParameters with both sub-causes. -/
def checkFrame (f : RawFrame) : Except FaultRaise Frame :=
  if h : f.wf = true then .ok ⟨f, h⟩
  else .error (invalidFrame (badLen f.len.toNat) (badId f.ext f.id))

/-- The record FRAME_NEW builds (R131), before its preconditions are tested. -/
def newRaw (id n : Word) (data : Payload) (remote extended : Bool) : RawFrame where
  id := id
  ext := extended
  rtr := remote
  len := n.extractLsb' 0 4
  data := payloadPadded (operand params.nw n) data

/-- When both preconditions hold the record is well formed (R132 (a)). -/
theorem newRaw_wf {id n : Word} {data : Payload} {remote extended : Bool}
    (h : (badId extended id || badLen (operand params.nw n)) = false) :
    (newRaw id n data remote extended).wf = true := by
  simp only [Bool.or_eq_false_iff] at h
  have hw : operand params.nw n = n.toNat := Nat.mod_eq_of_lt n.isLt
  rw [hw] at h
  have hn : n.toNat ≤ 8 := by have := of_decide_eq_false h.2; simp [params] at this; omega
  have hl : (newRaw id n data remote extended).len.toNat = n.toNat := by
    simp [newRaw]; omega
  simp [RawFrame.wf, hl, h.2]
  exact h.1

/-- FRAME_NEW as a pure function (R131): the frame, or InvalidFrameParameters with both tests' outcomes. -/
def newFrame (id n : Word) (data : Payload) (remote extended : Bool) : Except FaultRaise Frame :=
  if h : (badId extended id || badLen (operand params.nw n)) = false then
    .ok ⟨newRaw id n data remote extended, newRaw_wf h⟩
  else .error (invalidFrame (badLen (operand params.nw n)) (badId extended id))

/-- `TDTW(f)` (R102): `DLC` is the byte count; `TGT`, `TIME` and the reserved bits are 0. -/
def tdtWord (f : RawFrame) : Word :=
  fieldPut layout.dlc (f.len.setWidth 32) ||| fieldPut layout.tgt 0#32 ||| fieldPut layout.time 0#32

/-- `IDW(f)` (R101): an extended frame sets `IDE` and fills the 29-bit field, a standard frame fills `STID`; `RTR`
is the frame's flag; every other bit, `TXRQ` among them, is 0. -/
def idWord (f : RawFrame) : Word :=
  if f.ext then
    fieldPut layout.exid29 f.id ||| fieldPut layout.ide 1#32 ||| fieldPut layout.rtr (flagWord f.rtr)
  else
    fieldPut layout.stid f.id ||| fieldPut layout.rtr (flagWord f.rtr)

/-- `RQW(f)` (R103): the identifier word with `TXRQ` set. -/
def requestWord (f : RawFrame) : Word := fieldSet layout.txrq (idWord f)

/-- Four bytes in the lanes of a data register, the first lowest (R60). -/
def laneWord (d0 d1 d2 d3 : Byte) : Word :=
  fieldPut layout.lane0 (d0.setWidth 32) ||| fieldPut (fieldShift layout.lane0 8) (d1.setWidth 32) |||
    fieldPut (fieldShift layout.lane0 16) (d2.setWidth 32) ||| fieldPut (fieldShift layout.lane0 24) (d3.setWidth 32)

/-- `TDLW(f)` (R60): bytes 0 to 3, whatever `len` is. -/
def tdlWord (f : RawFrame) : Word := laneWord f.data.b0 f.data.b1 f.data.b2 f.data.b3

/-- `TDHW(f)` (R60): bytes 4 to 7, whatever `len` is. -/
def tdhWord (f : RawFrame) : Word := laneWord f.data.b4 f.data.b5 f.data.b6 f.data.b7

/-- `SER(f)` (R105): `(TDTW, IDW, TDLW, TDHW)`. -/
def serialWords (f : RawFrame) : Word × Word × Word × Word := (tdtWord f, idWord f, tdlWord f, tdhWord f)

/-- `BTRW(p)` (R104): test modes off, `SJW`, `TS2`, `TS1` and `BRP` each as value minus one, reserved bits 0. -/
def btrWord (p : Word) : Word :=
  fieldPut layout.silm 0#32 ||| fieldPut layout.lbkm 0#32 |||
    fieldPut layout.sjw (BitVec.ofNat 32 (params.sjw - 1)) |||
    fieldPut layout.ts2 (BitVec.ofNat 32 (params.ts2 - 1)) |||
    fieldPut layout.ts1 (BitVec.ofNat 32 (params.ts1 - 1)) |||
    fieldPut layout.brp (p - 1#32)

/-- The wake word (R106): `SLEEP` cleared, the rest as read. -/
def wakeWord (v : Word) : Word := fieldClear layout.sleep v

/-- The word that enters initialization (R106): `INRQ` set, the rest as read. -/
def initWord (v : Word) : Word := fieldSet layout.inrq v

/-- The word that leaves initialization (R106): `INRQ` cleared, the rest as read. -/
def exitWord (v : Word) : Word := fieldClear layout.inrq v

/-- The quotient `F div (B * 16)` on exact naturals, `F` of FW bits and `B` of BW bits (R7, R161, R162 (b)). -/
def quotient (clock baud : Word) : Nat := operand params.fw clock / (operand params.bw baud * quantaPerBit)

/-- `PRESC(F, B)` (R161): the prescaler, or the fault that refuses the operands. -/
def prescaler (clock baud : Word) : Except FaultRaise Word :=
  if operand params.bw baud = 0 then .error ⟨.baudRateZero, 0#32⟩
  else if quotient clock baud = 0 then .error ⟨.prescalerZero, 0#32⟩
  else if params.prescBound ≤ quotient clock baud then
    .error ⟨.prescalerOverflow, BitVec.ofNat 32 (quotient clock baud)⟩
  else .ok (BitVec.ofNat 32 (quotient clock baud))

end Sys2Proof.Machine
end

