-- ==== Sys2Proof/Machine/Flags.lean ====
section
/-! DEFINITION. Flags and tests: what the status port shows (R23, R24, R90), when a command is accepted (R93), the
poll tests (R107) and the mailbox selection (R108). -/

namespace Sys2Proof.Machine

/-- The 4-bit number of a fault code (R220). -/
def faultNumber (c : FaultCode) : BitVec 4 :=
  match c with
  | .none => 0#4
  | .invalidFrameParameters => 1#4
  | .prescalerOverflow => 2#4
  | .prescalerZero => 3#4
  | .baudRateZero => 4#4
  | .illegalCommand => 5#4
  | .sequenceError => 6#4

/-- `LASTTX.kind` (R24). -/
def lastTxKind (t : LastTx) : BitVec 2 :=
  match t with
  | .none => 0#2
  | .queued _ => 1#2
  | .dropped => 2#2

/-- `LASTTX.mb` (R24): the index when the kind is QUEUED, else 0. -/
def lastTxMailbox (t : LastTx) : BitVec 2 :=
  match t with
  | .queued m => BitVec.ofNat 2 m.val
  | _ => 0#2

/-- What the status port shows (R90), with the numbers of R220 and R24. -/
structure StatusPort where
  cfg : Bool
  busy : Bool
  fault : Bool
  fcode : BitVec 4
  finfo : Word
  lastTxKind : BitVec 2
  lastTxMailbox : BitVec 2
deriving DecidableEq, Repr

/-- The status port in a state (R90): HOST reads it at any time and changes nothing by it (R275). -/
def statusPort (s : State) : StatusPort where
  cfg := s.cfg
  busy := s.busy
  fault := s.fault
  fcode := faultNumber s.fcode
  finfo := s.finfo
  lastTxKind := lastTxKind s.lastTx
  lastTxMailbox := lastTxMailbox s.lastTx

/-- The condition of `Accept(c)` on the block (R93): `PH = IDLE`, `BUSY = 0`, `FAULT = 0`. -/
def canAccept (s : State) : Bool := decide (s.ph = .idle) && !s.busy && !s.fault

/-- The condition under which the rules describe bus accesses (R57): the clock is enabled and reset is released. -/
def busReady (s : State) : Bool := s.bcEn && !s.bcRst

/-- The wake poll exits when `SLAK = 0` (R107). -/
def wakeDone (msr : Word) : Bool := !fieldBit layout.slak msr

/-- The initialization-entry poll exits when `INAK = 1` (R107). -/
def initEntered (msr : Word) : Bool := fieldBit layout.inak msr

/-- The initialization-exit poll exits when `INAK = 0` (R107). -/
def initLeft (msr : Word) : Bool := !fieldBit layout.inak msr

/-- `TMEm` of a value read from TSR (R42). -/
def emptyFlag (tsr : Word) (m : MailboxIndex) : Bool := fieldBit (fieldShift layout.tme m.val) tsr

/-- `SEL(t)` (R108): the lowest index whose empty flag is set. -/
def selectMailbox (tsr : Word) : Option MailboxIndex :=
  if emptyFlag tsr 0 then some 0
  else if emptyFlag tsr 1 then some 1
  else if emptyFlag tsr 2 then some 2
  else none

end Sys2Proof.Machine
end

