-- ==== Sys2Proof/Machine/Ops.lean ====
section
/-! DEFINITION. The named operations over the state: the peripheral's registers (R40 to R56), bus transactions
(R62 to R68), bus-control actions (R57), acceptance (R93), completion (R10), fault entry (R230) and block reset
(R29), which is the only way out of a fault. -/

namespace Sys2Proof.Machine

/-- What a step answers. -/
abbrev Answer := Host.Outcome State Fault Refusal

/-- Mailbox `m` (R49). -/
def getBox (p : Periph) (m : MailboxIndex) : Mailbox :=
  match m with
  | 0 => p.box0
  | 1 => p.box1
  | 2 => p.box2

/-- The peripheral with mailbox `m` replaced (R49). -/
def setBox (p : Periph) (m : MailboxIndex) (b : Mailbox) : Periph :=
  match m with
  | 0 => { p with box0 := b }
  | 1 => { p with box1 := b }
  | 2 => { p with box2 := b }

/-- `TMEm` as a word: bit m of the field is 1 exactly when the mailbox is Empty (R50). -/
def emptyWord (p : Periph) (m : MailboxIndex) : Word :=
  fieldPut (fieldShift layout.tme m.val) (flagWord (decide ((getBox p m).mbs = .empty)))

/-- The value of TSR (R42): the stored bits with the empty flags computed from the mailbox states (R50). -/
def tsrValue (p : Periph) : Word :=
  fieldClear layout.tme p.tsr ||| emptyWord p 0 ||| emptyWord p 1 ||| emptyWord p 2

/-- The value a register holds, hardware-owned bits included (R68). Reading has no side effect (R64). -/
def readReg (p : Periph) (r : Reg) : Word :=
  match r with
  | .mcr => p.mcr
  | .msr => p.msr
  | .tsr => tsrValue p
  | .btr => p.btr
  | .ti m => (getBox p m).ti
  | .tdt m => (getBox p m).tdt
  | .tdl m => (getBox p m).tdl
  | .tdh m => (getBox p m).tdh

/-- The outcome bits `RQCPm, TXOKm, ALSTm, TERRm` of TSR (R42). -/
def outcomeField (m : MailboxIndex) : Field := fieldShift (fieldSpan layout.rqcp0 layout.terr0) (layout.tsrStride * m.val)

/-- `ERRI`, `WKUI` and `SLAKI` of MSR, cleared by writing 1 (R41). -/
def msrClearByOne : Word := fieldMask layout.erri ||| fieldMask layout.wkui ||| fieldMask layout.slaki

/-- All bits of TSR that are cleared by writing 1 (R42). -/
def tsrClearByOne : Word := fieldMask (outcomeField 0) ||| fieldMask (outcomeField 1) ||| fieldMask (outcomeField 2)

/-- The abort-request bits of TSR, set by writing 1 (R42). -/
def tsrSetByOne : Word :=
  fieldMask layout.abrq0 ||| fieldMask (fieldShift layout.abrq0 layout.tsrStride) |||
    fieldMask (fieldShift layout.abrq0 (2 * layout.tsrStride))

/-- Replace a mailbox that is Empty; a write to a Pending one is a fault of the model (R56, U4; log 10). -/
def writeBox (p : Periph) (m : MailboxIndex) (b : Mailbox) : Except Fault Periph :=
  if (getBox p m).mbs = .empty then .ok (setBox p m b) else .error (.writeToPendingMailbox m)

/-- What a bus write stores (R68). MCR and the mailbox registers are plain storage (R56); MSR and TSR ignore a write
but for the bits cleared or set by writing 1 (R41, R42; log 26); BTR stores only in initialization mode (R55; log 13);
a write of `TXRQ = 1` makes the mailbox Pending in the same step (R51; log 14). -/
def writeReg (p : Periph) (r : Reg) (v : Word) : Except Fault Periph :=
  match r with
  | .mcr => .ok { p with mcr := v }
  | .msr => .ok { p with msr := p.msr &&& ~~~ (v &&& msrClearByOne) }
  | .tsr => .ok { p with tsr := (p.tsr &&& ~~~ (v &&& tsrClearByOne)) ||| (v &&& tsrSetByOne) }
  | .btr => .ok (if fieldBit layout.inak p.msr then { p with btr := v } else p)
  | .ti m =>
    writeBox p m { getBox p m with ti := v, mbs := if fieldBit layout.txrq v then .pending else .empty }
  | .tdt m => writeBox p m { getBox p m with tdt := v }
  | .tdl m => writeBox p m { getBox p m with tdl := v }
  | .tdh m => writeBox p m { getBox p m with tdh := v }

/-- `LAYOUT.offset` (R66); a register of mailbox m stands m strides above that of mailbox 0 (R49). -/
def regOffset (r : Reg) : Nat :=
  match r with
  | .mcr => layout.mcrOffset
  | .msr => layout.msrOffset
  | .tsr => layout.tsrOffset
  | .btr => layout.btrOffset
  | .ti m => layout.tiOffset + layout.mailboxStride * m.val
  | .tdt m => layout.tdtOffset + layout.mailboxStride * m.val
  | .tdl m => layout.tdlOffset + layout.mailboxStride * m.val
  | .tdh m => layout.tdhOffset + layout.mailboxStride * m.val

/-- `Reg(NAME)`, the byte address of a register (R10, R66). -/
def regAddress (r : Reg) : Word := BitVec.ofNat 32 (params.base + regOffset r)

/-- The sixteen registers (R30). -/
def allRegs : List Reg :=
  [.mcr, .msr, .tsr, .btr, .ti 0, .tdt 0, .tdl 0, .tdh 0, .ti 1, .tdt 1, .tdl 1, .tdh 1, .ti 2, .tdt 2, .tdl 2, .tdh 2]

/-- The register at an address, if there is one (R66, R67). -/
def regAt (address : Word) : Option Reg := allRegs.find? fun r => decide (regAddress r = address)

/-- Append an external action to the trace (R11; log 4). -/
def note (a : Action) (s : State) : State := { s with trace := a :: s.trace }

/-- The state with other peripheral registers. -/
def storePeriph (p : Periph) (s : State) : State := { s with periph := p }

/-- `MemRead(address, 4)` (R10, R68), then `k` on the value, XLEN bits of it (R62). Faults of the model: logs 11 and 12. -/
def memRead (address : Word) (s : State) (k : Word → State → Answer) : Answer :=
  if busReady s then
    match regAt address with
    | some r => k (busWord (readReg s.periph r)) (note (.read r (busWord (readReg s.periph r))) s)
    | none => .fault (.unmappedAddress address)
  else .fault .busNotReady

/-- `MemWrite(address, 4, v)` (R10, R68), XLEN bits of `v` (R62), then `k`. Faults of the model: logs 10, 11 and 12. -/
def memWrite (address : Word) (v : Word) (s : State) (k : State → Answer) : Answer :=
  if busReady s then
    match regAt address with
    | some r =>
      match writeReg s.periph r (busWord v) with
      | .ok p => k (note (.write r (busWord v)) (storePeriph p s))
      | .error e => .fault e
    | none => .fault (.unmappedAddress address)
  else .fault .busNotReady

/-- A mailbox after the reset pulse (R48, R57): Empty, TXRQ = 0, every other bit a free value (U8; log 8). -/
def mailboxAfterReset (n : Nat) : Mailbox where
  ti := fieldClear layout.txrq (Config.freeWord n)
  tdt := Config.freeWord (n + 1)
  tdl := Config.freeWord (n + 2)
  tdh := Config.freeWord (n + 3)
  mbs := .empty

/-- The peripheral registers at their reset values (R48), the free values drawn from number `n` on. -/
def periphAfterReset (n : Nat) : Periph where
  mcr := layout.mcrReset
  msr := layout.msrReset
  tsr := layout.tsrReset
  btr := layout.btrReset
  box0 := mailboxAfterReset n
  box1 := mailboxAfterReset (n + 4)
  box2 := mailboxAfterReset (n + 8)

/-- `BusCtl(a)` and BUSCTL's reaction (R57, R241). -/
def busCtl (a : BusAction) (s : State) : State :=
  match a with
  | .en => note (.busCtl .en) { s with bcEn := true }
  | .rstAssert =>
    note (.busCtl .rstAssert) { s with bcRst := true, periph := periphAfterReset s.draws, draws := s.draws + 12 }
  | .rstDeassert => note (.busCtl .rstDeassert) { s with bcRst := false }

/-- `complete(r)` (R10): the result is presented, `BUSY <- 0`, `PH <- IDLE`. -/
def complete (r : Result) (s : State) : State := { s with result := some r, busy := false, ph := .idle }

/-- `raise X(info)`, fault entry (R230): no result, `FAULT`, `FCODE`, `FINFO` written, `BUSY <- 0`, `PH <- HALT`. -/
def raise (x : FaultRaise) (s : State) : State :=
  { s with result := none, fault := true, fcode := x.code, finfo := x.info, busy := false, ph := .halt }

/-- Block reset (R29): the only way out of a fault (R231). The latches are unspecified afterwards (U7), so the move
that asserts reset gives their values; a command in progress is abandoned without a result (R277). -/
def blockReset (l : Latches) (s : State) : State :=
  { s with
    cfg := false, busy := false, fault := false, fcode := .none, finfo := 0#32, lastTx := .none, ph := .idle
    fl := l.fl, tsrv := l.tsrv, mb := l.mb, pre := l.pre, mcrv := l.mcrv, result := none }

/-- The end of a pure command (R10): a result completes it, an error raises its fault. -/
def finish (r : Except FaultRaise Result) (s : State) : State :=
  match r with
  | .ok v => complete v s
  | .error x => raise x s

/-- The acceptance step (R93): when the block can accept, the record is taken off the command port, `BUSY <- 1` and
`body` does the command's part; otherwise the command waits and nothing changes (log 23). -/
def accept (body : State → State) (s : State) : Answer :=
  if canAccept s then .next (body { s with busy := true, cmd := none, result := none }) else .next s

end Sys2Proof.Machine
end

