-- ==== Sys2Proof/Machine/Agents.lean ====
section
/-! DEFINITION. The moves of HOST (R275) and of PERIPH (R50 to R56). A move that is not enabled changes nothing
(log 3). No other agent has a move: exclusive ownership (R72, R272; log 20). -/

namespace Sys2Proof.Machine

/-- A move of HOST: offer a record when none is waiting (R275, U16), or assert block reset (R29). -/
def hostMove (m : HostMove) (s : State) : State :=
  match m with
  | .offer r => if s.cmd = none then { s with cmd := some r } else s
  | .blockReset l => blockReset l s

/-- `Complete(m)` (R52): enabled while the mailbox is Pending; Empty afterwards, `TXRQ = 0`, the outcome bits and the
rest of the mailbox registers as the move says (U8, U12; log 9). -/
def completeBox (m : MailboxIndex) (outcome : BitVec 4) (ti tdt tdl tdh : Word) (p : Periph) : Periph :=
  if (getBox p m).mbs = .pending then
    setBox { p with tsr := fieldClear (outcomeField m) p.tsr ||| fieldPut (outcomeField m) (outcome.setWidth 32) } m
      ⟨fieldClear layout.txrq ti, tdt, tdl, tdh, .empty⟩
  else p

/-- The acknowledge bits of MSR, which only the acknowledge moves change (R53, R54). -/
def ackMask : Word := fieldMask layout.inak ||| fieldMask layout.slak

/-- A move of PERIPH on its registers. The acknowledges are enabled while the request bit of MCR asks for them (R53,
R54; log 31); `drift` gives any value to the bits of MSR and TSR that no rule names (U9; log 15); `stamp` changes TIME of
a mailbox (R45; log 32). PERIPH never changes MCR (D24; log 16). -/
def periphMove (m : PeriphMove) (p : Periph) : Periph :=
  match m with
  | .complete k outcome ti tdt tdl tdh => completeBox k outcome ti tdt tdl tdh p
  | .ackWake => if fieldBit layout.sleep p.mcr then p else { p with msr := fieldClear layout.slak p.msr }
  | .ackInit => if fieldBit layout.inrq p.mcr then { p with msr := fieldSet layout.inak p.msr } else p
  | .ackExit => if fieldBit layout.inrq p.mcr then p else { p with msr := fieldClear layout.inak p.msr }
  | .drift msr tsr => { p with msr := (p.msr &&& ackMask) ||| (msr &&& ~~~ ackMask), tsr := tsr }
  | .stamp k time =>
    setBox p k { getBox p k with tdt := fieldClear layout.time (getBox p k).tdt ||| fieldPut layout.time time }

/-- The window of TRANSMIT (R73): its status read is done and its last write is not. In it SEQ makes the five writes to
the selected mailbox (R197 to R201). -/
def writesMailbox (p : Phase) : Bool := decide (p ∈ [.txDlcWr, .txIdWr, .txDlWr, .txDhWr, .txRqWr])

/-- Whether a move of PERIPH is possible while SEQ is in phase `p`: in TRANSMIT's window PERIPH does nothing to a
mailbox but complete it (R73), so TIME keeps the zero that the block wrote (R204; log 32). -/
def periphEnabled (m : PeriphMove) (p : Phase) : Bool :=
  match m with
  | .stamp _ _ => !writesMailbox p
  | .complete .. => true
  | .ackWake => true
  | .ackInit => true
  | .ackExit => true
  | .drift _ _ => true

/-- A turn of PERIPH: its move where that is possible, else nothing (log 3). -/
def periphTurn (m : PeriphMove) (s : State) : State :=
  if periphEnabled m s.ph then storePeriph (periphMove m s.periph) s else s

end Sys2Proof.Machine
end

