-- ==== Sys2Proof/Decode.lean ====
section
/-! DEFINITION. Decoding and encoding of command records (R91, R110, R114). The spec gives the opcode map and the
fields of each format but no packing (R91): the model packs `op` into bits 3:0 and the operand fields above it in
R91's order, each flag one bit, `data[0]` the lowest lane. DESIGN CHOICE, safe (log 1). -/

namespace Sys2Proof

/-- Why a record is no command. -/
inductive DecodeError where
  /-- `op` is 0x0 or 0xA to 0xF (R110). -/
  | reservedOpcode (op : BitVec 4)
deriving DecidableEq, Repr

/-- The opcode field (R91). -/
def recordOp (r : CmdRecord) : BitVec 4 := r.extractLsb' 0 4

/-- The 32-bit field from bit `k` up. -/
def recordWord (r : CmdRecord) (k : Nat) : Word := r.extractLsb' k 32

/-- The byte lane from bit `k` up. -/
def recordByte (r : CmdRecord) (k : Nat) : Byte := r.extractLsb' k 8

/-- The eight byte lanes from bit `k` up, `data[0]` lowest. -/
def recordPayload (r : CmdRecord) (k : Nat) : Payload where
  b0 := recordByte r k
  b1 := recordByte r (k + 8)
  b2 := recordByte r (k + 16)
  b3 := recordByte r (k + 24)
  b4 := recordByte r (k + 32)
  b5 := recordByte r (k + 40)
  b6 := recordByte r (k + 48)
  b7 := recordByte r (k + 56)

/-- The frame field of format CMD-F: `id:32, ext:1, rtr:1, len:4, data[0..7]` (R91). -/
def recordFrame (r : CmdRecord) : RawFrame where
  id := recordWord r 4
  ext := r.getLsbD 36
  rtr := r.getLsbD 37
  len := r.extractLsb' 38 4
  data := recordPayload r 42

/-- Decode a record (R91). Total; a reserved opcode is rejected by name (R110). Bits that the format does not have
are not looked at (R111: they "do not exist in that format"). -/
def decode (r : CmdRecord) : Except DecodeError Instr :=
  match (recordOp r).toNat with
  | 1 => .ok (.frameNew (recordWord r 4) (recordWord r 36) (recordPayload r 68) (r.getLsbD 132) (r.getLsbD 133))
  | 2 => .ok (.frameId (recordFrame r))
  | 3 => .ok (.frameIsExtended (recordFrame r))
  | 4 => .ok (.frameIsRtr (recordFrame r))
  | 5 => .ok (.frameData (recordFrame r))
  | 6 => .ok (.serialize (recordFrame r))
  | 7 => .ok (.btrEncode (recordWord r 4) (recordWord r 36))
  | 8 => .ok (.configure (recordWord r 4) (recordWord r 36))
  | 9 => .ok (.transmit (recordFrame r))
  | _ => .error (.reservedOpcode (recordOp r))

/-- The opcode of a command (R91, the opcode map). -/
def opcode (i : Instr) : BitVec 4 :=
  match i with
  | .frameNew _ _ _ _ _ => 0x1#4
  | .frameId _ => 0x2#4
  | .frameIsExtended _ => 0x3#4
  | .frameIsRtr _ => 0x4#4
  | .frameData _ => 0x5#4
  | .serialize _ => 0x6#4
  | .btrEncode _ _ => 0x7#4
  | .configure _ _ => 0x8#4
  | .transmit _ => 0x9#4

/-- How many bits the format of a command has (R91): CMD-N 134, CMD-F 106, CMD-T 68. -/
def formatWidth (i : Instr) : Nat :=
  match i with
  | .frameNew _ _ _ _ _ => 134
  | .frameId _ => 106
  | .frameIsExtended _ => 106
  | .frameIsRtr _ => 106
  | .frameData _ => 106
  | .serialize _ => 106
  | .btrEncode _ _ => 68
  | .configure _ _ => 68
  | .transmit _ => 106

/-- Byte lanes as bits, `data[0]` lowest. -/
def packPayload (d : Payload) : BitVec 64 := d.b7 ++ d.b6 ++ d.b5 ++ d.b4 ++ d.b3 ++ d.b2 ++ d.b1 ++ d.b0

/-- A CMD-N record (R91). -/
def packN (op : BitVec 4) (id n : Word) (data : Payload) (remote extended : Bool) : CmdRecord :=
  BitVec.ofBool extended ++ BitVec.ofBool remote ++ packPayload data ++ n ++ id ++ op

/-- A CMD-F record (R91); the bits above it are 0. -/
def packF (op : BitVec 4) (f : RawFrame) : CmdRecord :=
  (packPayload f.data ++ f.len ++ BitVec.ofBool f.rtr ++ BitVec.ofBool f.ext ++ f.id ++ op).setWidth 134

/-- A CMD-T record (R91); the bits above it are 0. -/
def packT (op : BitVec 4) (clock baud : Word) : CmdRecord := (baud ++ clock ++ op).setWidth 134

/-- Encode a command (R91). -/
def encode (i : Instr) : CmdRecord :=
  match i with
  | .frameNew id n data remote extended => packN (opcode i) id n data remote extended
  | .frameId f => packF (opcode i) f
  | .frameIsExtended f => packF (opcode i) f
  | .frameIsRtr f => packF (opcode i) f
  | .frameData f => packF (opcode i) f
  | .serialize f => packF (opcode i) f
  | .btrEncode clock baud => packT (opcode i) clock baud
  | .configure clock baud => packT (opcode i) clock baud
  | .transmit f => packF (opcode i) f

/-- The record whose low `nbits` bits are `w` and whose other bits are 0. -/
def tableRecord (nbits w : Nat) : CmdRecord := BitVec.ofNat 134 (w % 2 ^ nbits)

/-- What the decoder reads from a word of the opcode table: bit 0 of `w` is bit 0 of the record. -/
def decodeTableWord (nbits w : Nat) : Option Instr :=
  match decode (tableRecord nbits w) with
  | .ok i => some i
  | .error _ => none

end Sys2Proof
end

