-- ==== Sys2Proof/Machine/BitTiming.lean ====
section
/-! DEFINITION. BTR_ENCODE (R165) and CONFIGURE (R170): its acceptance (R171) and its thirteen phases (R172 to R176),
one external action each. -/

namespace Sys2Proof.Machine

/-- BTR_ENCODE (R165): the timing word of the prescaler, or the prescaler's fault. -/
def execBtrEncode (clock baud : Word) (s : State) : Answer :=
  accept (finish ((prescaler clock baud).map fun p => .word (btrWord p))) s

/-- The acceptance of CONFIGURE (R171): SequenceError once configured (R228), then the prescaler's faults, before
any external action (C2); else the prescaler is latched. -/
def acceptConfigure (clock baud : Word) (s : State) : State :=
  if s.cfg then raise (sequenceError (opcode (.configure clock baud))) s
  else
    match prescaler clock baud with
    | .error x => raise x s
    | .ok p => { s with pre := p, ph := .cfEn }

/-- CONFIGURE (R170): its acceptance step; the phases below are its later steps, taken from `PH` (log 23). -/
def execConfigure (clock baud : Word) (s : State) : Answer := accept (acceptConfigure clock baud) s

/-- Phase CF_EN (R172): request the bus clock. -/
def stepCfEn (s : State) : Answer := .next { busCtl .en s with ph := .cfRstA }

/-- Phase CF_RSTA (R172): assert the reset line. -/
def stepCfRstA (s : State) : Answer := .next { busCtl .rstAssert s with ph := .cfRstD }

/-- Phase CF_RSTD (R172): deassert the reset line. -/
def stepCfRstD (s : State) : Answer := .next { busCtl .rstDeassert s with ph := .cfWakeRd }

/-- Read MCR into `MCRV` and go on to `next` (R173). -/
def latchMcr (next : Phase) (s : State) : Answer :=
  memRead (regAddress .mcr) s fun v t => .next { t with mcrv := v, ph := next }

/-- Write `v` to MCR and go on to `next` (R173). -/
def storeMcr (v : Word) (next : Phase) (s : State) : Answer :=
  memWrite (regAddress .mcr) v s fun t => .next { t with ph := next }

/-- One iteration of a poll (R175): one read of MSR, and `k` says where its value leads. With POLL_BOUND `none`, its only
defined value (R7, C7), no count is kept and the iterations have no limit. -/
def pollMsr (k : Word → State → State) (s : State) : Answer :=
  match params.pollBound with
  | none => memRead (regAddress .msr) s fun v t => .next (k v t)
  | some n => .refused (.boundedPoll n)

/-- Phase CF_WAKE_RD (R173). -/
def stepCfWakeRd (s : State) : Answer := latchMcr .cfWakeWr s

/-- Phase CF_WAKE_WR (R173, R106): clear SLEEP. -/
def stepCfWakeWr (s : State) : Answer := storeMcr (wakeWord s.mcrv) .cfWakePoll s

/-- Phase CF_WAKE_POLL (R175, R107). -/
def stepCfWakePoll (s : State) : Answer :=
  pollMsr (fun v t => { t with ph := if wakeDone v then .cfInitRd else .cfWakePoll }) s

/-- Phase CF_INIT_RD (R173). -/
def stepCfInitRd (s : State) : Answer := latchMcr .cfInitWr s

/-- Phase CF_INIT_WR (R173, R106): set INRQ. -/
def stepCfInitWr (s : State) : Answer := storeMcr (initWord s.mcrv) .cfInitPoll s

/-- Phase CF_INIT_POLL (R175, R107). -/
def stepCfInitPoll (s : State) : Answer :=
  pollMsr (fun v t => { t with ph := if initEntered v then .cfBtrWr else .cfInitPoll }) s

/-- Phase CF_BTR_WR (R174): the whole timing word in one write. -/
def stepCfBtrWr (s : State) : Answer :=
  memWrite (regAddress .btr) (btrWord s.pre) s fun t => .next { t with ph := .cfExitRd }

/-- Phase CF_EXIT_RD (R173). -/
def stepCfExitRd (s : State) : Answer := latchMcr .cfExitWr s

/-- Phase CF_EXIT_WR (R173, R106): clear INRQ. -/
def stepCfExitWr (s : State) : Answer := storeMcr (exitWord s.mcrv) .cfExitPoll s

/-- Phase CF_EXIT_POLL (R175, R107) and the completion (R176): the read that shows INAK = 0 also sets CFG. -/
def stepCfExitPoll (s : State) : Answer :=
  pollMsr (fun v t => if initLeft v then complete .unit { t with cfg := true } else { t with ph := .cfExitPoll }) s

end Sys2Proof.Machine
end

