-- ==== Sys2Proof/Machine/FrameCommands.lean ====
section
/-! DEFINITION. The frame commands (R130 to R139). Each is its acceptance step and nothing more (R27): it performs no
external action and reads no block state (R130). -/

namespace Sys2Proof.Machine

/-- FRAME_NEW (R131): construct and validate a frame. -/
def execFrameNew (id n : Word) (data : Payload) (remote extended : Bool) (s : State) : Answer :=
  accept (finish ((newFrame id n data remote extended).map .frame)) s

/-- FRAME_ID (R133): the full 32-bit identifier field. -/
def execFrameId (frame : RawFrame) (s : State) : Answer :=
  accept (finish ((checkFrame frame).map fun f => .word f.raw.id)) s

/-- FRAME_IS_EXTENDED (R134). -/
def execFrameIsExtended (frame : RawFrame) (s : State) : Answer :=
  accept (finish ((checkFrame frame).map fun f => .flag f.raw.ext)) s

/-- FRAME_IS_RTR (R135). -/
def execFrameIsRtr (frame : RawFrame) (s : State) : Answer :=
  accept (finish ((checkFrame frame).map fun f => .flag f.raw.rtr)) s

/-- FRAME_DATA (R136): exactly `len` bytes, in index order. -/
def execFrameData (frame : RawFrame) (s : State) : Answer :=
  accept (finish ((checkFrame frame).map fun f =>
    .bytes f.raw.len ((payloadList f.raw.data).take f.raw.len.toNat))) s

/-- SERIALIZE (R138): the four register words, all eight bytes whatever `len` is. -/
def execSerialize (frame : RawFrame) (s : State) : Answer :=
  accept (finish ((checkFrame frame).map fun f =>
    .words (tdtWord f.raw) (idWord f.raw) (tdlWord f.raw) (tdhWord f.raw))) s

end Sys2Proof.Machine
end

