-- ==== Sys2Proof/Machine/Transmit.lean ====
section
/-! DEFINITION. TRANSMIT (R190): its acceptance (R191), the status read with the mailbox selection (R192 to R196),
and the five writes with the completion (R197 to R202). -/

namespace Sys2Proof.Machine

/-- The acceptance of TRANSMIT (R191): SequenceError before CONFIGURE (R228), then the frame-operand check (R137);
else the frame is latched. -/
def acceptTransmit (frame : RawFrame) (s : State) : State :=
  if s.cfg then
    match checkFrame frame with
    | .error x => raise x s
    | .ok f => { s with fl := f.raw, ph := .txTsrRd }
  else raise (sequenceError (opcode (.transmit frame))) s

/-- TRANSMIT (R190): its acceptance step; the phases below are its later steps, taken from `PH` (log 23). -/
def execTransmit (frame : RawFrame) (s : State) : Answer := accept (acceptTransmit frame) s

/-- What follows the status read (R194, R196): the lowest Empty mailbox is latched, or the frame is dropped. -/
def choose (v : Word) (s : State) : State :=
  match selectMailbox v with
  | none => complete (.outcome .dropped) { s with tsrv := v, lastTx := .dropped }
  | some m => { s with tsrv := v, mb := m, ph := .txDlcWr }

/-- Phase TX_TSR_RD (R192 to R196): exactly one read of TSR. -/
def stepTxTsrRd (s : State) : Answer := memRead (regAddress .tsr) s fun v t => .next (choose v t)

/-- Phase TX_DLC_WR (R197). -/
def stepTxDlcWr (s : State) : Answer :=
  memWrite (regAddress (.tdt s.mb)) (tdtWord s.fl) s fun t => .next { t with ph := .txIdWr }

/-- Phase TX_ID_WR (R198). -/
def stepTxIdWr (s : State) : Answer :=
  memWrite (regAddress (.ti s.mb)) (idWord s.fl) s fun t => .next { t with ph := .txDlWr }

/-- Phase TX_DL_WR (R199). -/
def stepTxDlWr (s : State) : Answer :=
  memWrite (regAddress (.tdl s.mb)) (tdlWord s.fl) s fun t => .next { t with ph := .txDhWr }

/-- Phase TX_DH_WR (R200). -/
def stepTxDhWr (s : State) : Answer :=
  memWrite (regAddress (.tdh s.mb)) (tdhWord s.fl) s fun t => .next { t with ph := .txRqWr }

/-- Phase TX_RQ_WR (R201) and the completion (R202). -/
def stepTxRqWr (s : State) : Answer :=
  memWrite (regAddress (.ti s.mb)) (requestWord s.fl) s fun t =>
    .next (complete (.outcome (.queued t.mb)) { t with lastTx := .queued t.mb })

end Sys2Proof.Machine
end

