-- ==== Sys2Proof/Machine/Dispatch.lean ====
section
/-! DEFINITION. The meaning of each command: its acceptance step (R93). -/

namespace Sys2Proof.Machine

def exec (i : Instr) (s : State) : Host.Outcome State Fault Refusal :=
  match i with
  | .frameNew id n data remote extended => Sys2Proof.Machine.execFrameNew id n data remote extended s
  | .frameId frame => Sys2Proof.Machine.execFrameId frame s
  | .frameIsExtended frame => Sys2Proof.Machine.execFrameIsExtended frame s
  | .frameIsRtr frame => Sys2Proof.Machine.execFrameIsRtr frame s
  | .frameData frame => Sys2Proof.Machine.execFrameData frame s
  | .serialize frame => Sys2Proof.Machine.execSerialize frame s
  | .btrEncode clock baud => Sys2Proof.Machine.execBtrEncode clock baud s
  | .configure clock baud => Sys2Proof.Machine.execConfigure clock baud s
  | .transmit frame => Sys2Proof.Machine.execTransmit frame s

end Sys2Proof.Machine
end

