-- ==== Sys2Proof/Machine/Sequencer.lean ====
section
/-! DEFINITION. The steps of SEQ (R26, R27): accepting the command on the port from IDLE, and one phase of CONFIGURE or
TRANSMIT from any other phase; and the interleaving of the agents (R12). -/

namespace Sys2Proof.Machine

/-- A reserved opcode (R110): accepted like any command, it raises IllegalCommand (R224). -/
def execReserved (op : BitVec 4) (s : State) : Answer := accept (raise (illegalCommand op)) s

/-- The step from IDLE (R93): the record on the command port is decoded and executed; with none there, SEQ has no
step and nothing changes (log 3). -/
def stepIdle (s : State) : Answer :=
  match s.cmd with
  | none => .next s
  | some r =>
    match decode r with
    | .ok i => exec i s
    | .error (.reservedOpcode op) => execReserved op s

/-- One step of SEQ (R26). From HALT it has none (R231): nothing changes (log 27). -/
def seqStep (s : State) : Answer :=
  match s.ph with
  | .idle => stepIdle s
  | .halt => .next s
  | .cfEn => stepCfEn s
  | .cfRstA => stepCfRstA s
  | .cfRstD => stepCfRstD s
  | .cfWakeRd => stepCfWakeRd s
  | .cfWakeWr => stepCfWakeWr s
  | .cfWakePoll => stepCfWakePoll s
  | .cfInitRd => stepCfInitRd s
  | .cfInitWr => stepCfInitWr s
  | .cfInitPoll => stepCfInitPoll s
  | .cfBtrWr => stepCfBtrWr s
  | .cfExitRd => stepCfExitRd s
  | .cfExitWr => stepCfExitWr s
  | .cfExitPoll => stepCfExitPoll s
  | .txTsrRd => stepTxTsrRd s
  | .txDlcWr => stepTxDlcWr s
  | .txIdWr => stepTxIdWr s
  | .txDlWr => stepTxDlWr s
  | .txDhWr => stepTxDhWr s
  | .txRqWr => stepTxRqWr s

/-- The step of the agent whose turn it is (R12). -/
def runTurn (t : Turn) (s : State) : Answer :=
  match t with
  | .seq => seqStep s
  | .host m => .next (hostMove m s)
  | .periph m => .next (periphTurn m s)

/-- Whose turn it is, and the state with that turn taken off: the head of `turns`, or a free value (log 2). -/
def takeTurn (s : State) : Turn × State :=
  match s.turns with
  | t :: ts => (t, { s with turns := ts })
  | [] => (Config.freeTurn s.draws, { s with draws := s.draws + 1 })

/-- A state whose next step accepts the record `r`: the record is on the port, the block is idle, and the next turn is
SEQ's (log 24). -/
def placeRecord (r : CmdRecord) (s : State) : State :=
  { s with cmd := some r, turns := .seq :: s.turns, ph := .idle, busy := false, fault := false }

end Sys2Proof.Machine
end

