-- ==== Sys2Proof/Machine/Step.lean ====
section
/-! DEFINITION. One step of the machine: the agent whose turn it is moves (R11, R12); and the state whose next step
runs a given record. -/

namespace Sys2Proof.Machine

/-- One step (R11, R12). -/
def step (s : State) : Host.Outcome State Fault Refusal := runTurn (takeTurn s).1 (takeTurn s).2

/-- `s` with a record of the opcode table's bits presented, so that the next step runs it (R93, log 24). -/
def State.withFetchWord (s : State) (nbits w : Nat) : State := placeRecord (tableRecord nbits w) s

end Sys2Proof.Machine
end

