-- ==== Sys2Proof/Safety.lean ====
section
/-! DEFINITION. What counts as a good state of the machine, in the terms statements use: legal operands in the spec's own
numbers, the states a command leaves, the classes of phases, and the invariant that every step keeps. -/

namespace Sys2Proof.Safety

open Sys2Proof.Machine

/-- The block can accept a command (R93). -/
def Ready (s : State) : Prop := s.ph = .idle ∧ s.busy = false ∧ s.fault = false

/-- An identifier within its mode's strict bound, in the spec's numbers (R6, R22). -/
abbrev LegalId (ext : Bool) (id : Word) : Prop :=
  (ext = false → id.toNat < 0x7FF) ∧ (ext = true → id.toNat < 0x1FFFFFFF)

/-- `WF(f)` in the spec's numbers (R22). -/
abbrev LegalFrame (f : RawFrame) : Prop := f.len.toNat ≤ 8 ∧ LegalId f.ext f.id

/-- `{30'b0, bad_len, bad_id}` as a number (R221). -/
def frameFaultInfo (ext : Bool) (id : Word) (len : Nat) : Word :=
  BitVec.ofNat 32 ((if 8 < len then 2 else 0) + if LegalId ext id then 0 else 1)

/-- What a completed pure command leaves (R10, R27, R93): the record taken, the result presented, and nothing else
changed in a block that was ready. -/
def completed (s : State) (r : Result) : State := { s with cmd := none, result := some r, busy := false, ph := .idle }

/-- What a fault leaves (R230): the record taken, no result, the flags and HALT, and nothing else changed. -/
def faulted (s : State) (code : FaultCode) (info : Word) : State :=
  { s with
    cmd := none, result := none, busy := false, fault := true, fcode := code, finfo := info, ph := .halt }

/-- A turn of the block or of PERIPH: HOST stands still (R12). -/
def quietTurn (t : Turn) : Bool :=
  match t with
  | .host _ => false
  | _ => true

/-- The phases of CONFIGURE (R26). -/
def inConfigure (p : Phase) : Bool :=
  decide (p ∈ [.cfEn, .cfRstA, .cfRstD, .cfWakeRd, .cfWakeWr, .cfWakePoll, .cfInitRd, .cfInitWr, .cfInitPoll, .cfBtrWr,
    .cfExitRd, .cfExitWr, .cfExitPoll])

/-- The phases of TRANSMIT (R26). -/
def inTransmit (p : Phase) : Bool :=
  decide (p ∈ [.txTsrRd, .txDlcWr, .txIdWr, .txDlWr, .txDhWr, .txRqWr])

/-- The phases of CONFIGURE from which a bus access is made: those after the reset pulse (R172). -/
def afterPulse (p : Phase) : Bool :=
  inConfigure p && !decide (p ∈ [.cfEn, .cfRstA, .cfRstD])

/-- The phases that write MCR with the value just read (R173). -/
def writesMcr (p : Phase) : Bool := decide (p ∈ [.cfWakeWr, .cfInitWr, .cfExitWr])

/-- The phases after the wake write (R53): SLEEP is 0. -/
def wakeRequested (p : Phase) : Bool :=
  afterPulse p && !decide (p ∈ [.cfWakeRd, .cfWakeWr])

/-- The phases after the wake poll (R53): SLAK is 0. -/
def awake (p : Phase) : Bool := wakeRequested p && !decide (p = .cfWakePoll)

/-- The phases between the two INRQ writes (R54): INRQ is 1. -/
def initRequested (p : Phase) : Bool := decide (p ∈ [.cfInitPoll, .cfBtrWr, .cfExitRd, .cfExitWr])

/-- The phases between the entry poll and the write that leaves initialization (R174, R270): INAK is 1. -/
def initEntered (p : Phase) : Bool := decide (p ∈ [.cfBtrWr, .cfExitRd, .cfExitWr])

/-- The reserved bits of MCR, which read as 0 (R40). -/
def mcrReserved : Word := fieldMask layout.mcrReservedLow ||| fieldMask layout.mcrReservedHigh

/-- The peripheral is in normal mode and nothing asks it to leave (R237). -/
structure Normal (p : Periph) : Prop where
  sleepClear : fieldBit layout.sleep p.mcr = false
  inrqClear : fieldBit layout.inrq p.mcr = false
  slakClear : fieldBit layout.slak p.msr = false
  inakClear : fieldBit layout.inak p.msr = false

/-- The invariant of the machine. -/
structure Invariant (s : State) : Prop where
  /-- A command is busy exactly in the phases of CONFIGURE and TRANSMIT (R23, R27). -/
  busyExact : s.busy = (inConfigure s.ph || inTransmit s.ph)
  /-- Halted and faulted are the same (R231). -/
  faultExact : s.fault = decide (s.ph = .halt)
  /-- Without a fault there is no code and no information word (R23). -/
  noFault : s.fault = false → s.fcode = .none ∧ s.finfo = 0#32
  /-- A fault has a code (R220). -/
  hasCode : s.fault = true → s.fcode ≠ .none
  /-- CONFIGURE runs unconfigured and TRANSMIT configured (R236). -/
  configuring : inConfigure s.ph = true → s.cfg = false
  transmitting : inTransmit s.ph = true → s.cfg = true
  /-- The bus is ready after the reset pulse and once configured (R57, R172). -/
  clockEnabled : (inConfigure s.ph && !decide (s.ph = .cfEn)) = true → s.bcEn = true
  busIsReady : (afterPulse s.ph || s.cfg) = true → busReady s = true
  /-- Once configured, the peripheral is in normal mode (R237). -/
  normal : s.cfg = true → Normal s.periph
  /-- The latch holds MCR as it is when MCR is written back (R75, R173). -/
  latched : writesMcr s.ph = true → s.mcrv = s.periph.mcr
  /-- The progress of the mode transitions (R53, R54, R237). -/
  sleepClear : wakeRequested s.ph = true → fieldBit layout.sleep s.periph.mcr = false
  slakClear : awake s.ph = true → fieldBit layout.slak s.periph.msr = false
  inrqSet : initRequested s.ph = true → fieldBit layout.inrq s.periph.mcr = true
  inakSet : initEntered s.ph = true → fieldBit layout.inak s.periph.msr = true
  inrqClear : s.ph = .cfExitPoll → fieldBit layout.inrq s.periph.mcr = false
  /-- The prescaler is in 1 to 511 while CONFIGURE runs (R25, R171). -/
  prescalerRange : inConfigure s.ph = true → 1 ≤ s.pre.toNat ∧ s.pre.toNat < params.prescBound
  /-- The latched frame is well formed while TRANSMIT runs (R191). -/
  frameWf : inTransmit s.ph = true → s.fl.wf = true
  /-- The mailbox being written is Empty (R51, R205 (i)). -/
  boxEmpty : writesMailbox s.ph = true → (getBox s.periph s.mb).mbs = .empty
  /-- `TXRQ` is 1 exactly in Pending mailboxes (R51, R52). -/
  requestExact : ∀ m : MailboxIndex,
    fieldBit layout.txrq (getBox s.periph m).ti = decide ((getBox s.periph m).mbs = .pending)
  /-- The reserved bits of MCR read as 0 (R40). -/
  mcrReservedZero : s.periph.mcr &&& mcrReserved = 0#32

end Sys2Proof.Safety
end

