-- ==== Sys2Proof/WellFormed.lean ====
section
/-! DEFINITION. Well-formedness of a command (R22, R111): its operands are legal, so that its acceptance raises no
operand fault; and the admissible configurations and layouts (R7, R40 to R49, R62, R63, R66).
Every command, legal or not, has an encoding. -/

namespace Sys2Proof

/-- Legal operands of FRAME_NEW (R111 (a)). -/
def wellFormedNew (id n : Word) (extended : Bool) : Bool :=
  !Machine.badId extended id && !Machine.badLen (Machine.operand Machine.params.nw n)

/-- Legal operands of BTR_ENCODE and CONFIGURE (R111 (c)). -/
def wellFormedTiming (clock baud : Word) : Bool :=
  decide (Machine.operand Machine.params.bw baud ≠ 0) && decide (1 ≤ Machine.quotient clock baud) &&
    decide (Machine.quotient clock baud < Machine.params.prescBound)

/-- A command whose operands are legal (R111). -/
def Instr.wellFormed (i : Instr) : Bool :=
  match i with
  | .frameNew id n _ _ extended => wellFormedNew id n extended
  | .frameId f => f.wf
  | .frameIsExtended f => f.wf
  | .frameIsRtr f => f.wf
  | .frameData f => f.wf
  | .serialize f => f.wf
  | .btrEncode clock baud => wellFormedTiming clock baud
  | .configure clock baud => wellFormedTiming clock baud
  | .transmit f => f.wf

/-- A configuration this model is for: BASE is aligned and the block does not wrap (R63, R66, U13), and the widths and
POLL_BOUND have the values the types of the model are built for (R7; log 19). -/
def Params.admissible (p : Params) : Bool :=
  decide (p.base % 4 = 0) && decide (p.base + 0x1AC < 2 ^ 32) && decide (p.nmb = 3) && decide (p.maxLen = 8) &&
    decide (p.xlen = 32) && decide (p.fw = 32) && decide (p.bw = 32) && decide (p.nw = 32) &&
    decide (p.pollBound = none)

/-- Two fields have no bit in common. -/
def Field.disjoint (a b : Field) : Bool := decide (a.lsb + a.width ≤ b.lsb) || decide (b.lsb + b.width ≤ a.lsb)

/-- The fields of one register are apart and lie inside its 32 bits. -/
def fieldsFit (l : List Field) : Bool :=
  decide (l.Pairwise fun a b => a.disjoint b = true) && l.all fun f => decide (0 < f.width ∧ f.lsb + f.width ≤ 32)

/-- The fields of TSR, mailbox by mailbox (R42). -/
def Layout.tsrFields (y : Layout) : List Field :=
  [y.code, y.tme, y.low] ++ [0, 1, 2].flatMap fun m =>
    [y.rqcp0, y.txok0, y.alst0, y.terr0, y.abrq0].map fun f => Machine.fieldShift f (y.tsrStride * m)

/-- A LAYOUT this model is for: in each register the fields of R40 to R47 are apart, EXID29 is STID over EXIDL (R44),
the four outcome bits of a mailbox stand side by side (R42), and the offsets are word addresses (R63). -/
def Layout.admissible (y : Layout) : Bool :=
  fieldsFit [y.inrq, y.sleep, y.txfp, y.rflm, y.nart, y.awum, y.abom, y.ttcm, y.mcrReservedLow, y.reset, y.dbf,
      y.mcrReservedHigh] &&
    fieldsFit [y.inak, y.slak, y.erri, y.wkui, y.slaki, y.txm, y.rxm, y.samp, y.rx] && fieldsFit y.tsrFields &&
    fieldsFit [y.brp, y.ts1, y.ts2, y.sjw, y.lbkm, y.silm] && fieldsFit [y.txrq, y.rtr, y.ide, y.exidl, y.stid] &&
    fieldsFit [y.dlc, y.tgt, y.time] && decide (y.exid29 = Machine.fieldSpan y.exidl y.stid) &&
    decide (y.exid29.width = y.exidl.width + y.stid.width) &&
    decide ((Machine.fieldSpan y.rqcp0 y.terr0).width = 4) &&
    [y.mcrOffset, y.msrOffset, y.tsrOffset, y.btrOffset, y.tiOffset, y.tdtOffset, y.tdlOffset, y.tdhOffset,
      y.mailboxStride].all fun k => decide (k % 4 = 0)

end Sys2Proof
end

