-- ==== Sys2Proof/Certificates/Slice0/Obligations.lean ====
section
/-! DEFINITION. The statements for the provers, from the numbered rules of spec/. -/

open Sys2Proof Sys2Proof.Machine Sys2Proof.Safety

/-! ### Encoding (R91, R110, R114; the packing is the model's choice, log 1) -/

/-- Decoding an encoded command gives it back, with every operand at every value (R91; packing: log 1).
Rests on the spec's own choices D3; log 1. -/
def Obligations.DecodeInvertsEncode : Prop := ∀ i : Instr, decode (encode i) = .ok i

/-- A record that decodes agrees, in every bit its format has, with the encoding of what it decodes to (R91, R111;
packing: log 1).
Rests on the spec's own choices D3; log 1. -/
def Obligations.EncodeInvertsDecode : Prop :=
  ∀ (r : CmdRecord) (i : Instr), decode r = .ok i →
    ∀ k, k < formatWidth i → (encode i).getLsbD k = r.getLsbD k

/-- Records written out bit by bit decode to their commands (R91; packing: log 1).
Rests on the spec's own choices D3; log 1. -/
def Obligations.SampleRecordsDecode : Prop :=
  decode 0x3#134 = .ok (.frameIsExtended ⟨0#32, false, false, 0#4, ⟨0#8, 0#8, 0#8, 0#8, 0#8, 0#8, 0#8, 0#8⟩⟩) ∧
    decode 0x2A871FFFFFFE9#134 =
      .ok (.transmit ⟨0x1FFFFFFE#32, true, true, 1#4, ⟨0xAA#8, 0#8, 0#8, 0#8, 0#8, 0#8, 0#8, 0#8⟩⟩) ∧
    decode 0x300000000000000AA000000011FFFFFFE1#134 =
      .ok (.frameNew 0x1FFFFFFE#32 1#32 ⟨0xAA#8, 0#8, 0#8, 0#8, 0#8, 0#8, 0#8, 0#8⟩ true true) ∧
    decode (0x0007A120007A12008#134) = .ok (.configure 8000000#32 500000#32) ∧
    decode (0x0007A120007A12007#134) = .ok (.btrEncode 8000000#32 500000#32) ∧
    decode (0x0#134) = .error (.reservedOpcode 0x0#4) ∧ decode (0xA#134) = .error (.reservedOpcode 0xA#4)

/-- Exactly the opcodes 0x0 and 0xA to 0xF are rejected, by name (R110).
Rests on the spec's own choices D3; log 1. -/
def Obligations.ReservedOpcodesRejected : Prop :=
  ∀ r : CmdRecord,
    (decode r = .error (.reservedOpcode (recordOp r)) ↔ recordOp r = 0x0#4 ∨ 0xA ≤ (recordOp r).toNat) ∧
    ((∃ i, decode r = .ok i) ↔ 1 ≤ (recordOp r).toNat ∧ (recordOp r).toNat ≤ 9)

/-! ### The step (R11, R12, R93) -/

/-- A step is the move of the agent whose turn it is: the next of `turns`, or the free value when there is none
(R12; schedule: log 2).
Rests on the spec's own choices D1; log 2. -/
def Obligations.StepMovesScheduledAgent : Prop :=
  (∀ (s : State) (t : Turn) (ts : List Turn), s.turns = t :: ts → step s = runTurn t { s with turns := ts }) ∧
    ∀ s : State, s.turns = [] → step s = runTurn (Config.freeTurn s.draws) { s with draws := s.draws + 1 }

/-- A step of SEQ on a ready block runs the command that the presented record decodes to, and it does so for a record
placed by `withFetchWord` (R93; log 24).
Rests on the spec's own choices D19; logs 2, 22 and 24. -/
def Obligations.StepRunsPresentedCommand : Prop :=
  (∀ (s : State) (ts : List Turn) (r : CmdRecord) (i : Instr), Ready s → s.turns = .seq :: ts → s.cmd = some r →
      decode r = .ok i → step s = exec i { s with turns := ts }) ∧
    ∀ (s : State) (nbits w : Nat) (i : Instr), decodeTableWord nbits w = some i →
      step (s.withFetchWord nbits w) =
        exec i { s with cmd := some (tableRecord nbits w), ph := .idle, busy := false, fault := false }

/-- A reserved opcode raises IllegalCommand, code 5, with the opcode as information word; the status
port shows both (R224, R110, R90).
Rests on the spec's own choices D3, D15, D16, D30; log 1. -/
def Obligations.ReservedCommandFaults : Prop :=
  ∀ (s : State) (r : CmdRecord), Ready s → s.cmd = some r → (recordOp r = 0x0#4 ∨ 0xA ≤ (recordOp r).toNat) →
    seqStep s = .next (faulted s .illegalCommand ((recordOp r).setWidth 32)) ∧
      statusPort (faulted s .illegalCommand ((recordOp r).setWidth 32)) =
        ⟨s.cfg, false, true, 5#4, (recordOp r).setWidth 32, lastTxKind s.lastTx, lastTxMailbox s.lastTx⟩

/-- A command presented to a block that is not ready waits: neither the command nor the block changes; with no command
presented an idle block does nothing (R93).
Rests on the spec's own choices D19; logs 3 and 23. -/
def Obligations.CommandsWaitUntilReady : Prop :=
  (∀ (i : Instr) (s : State), ¬ Ready s → exec i s = .next s) ∧
    (∀ (op : BitVec 4) (s : State), ¬ Ready s → execReserved op s = .next s) ∧
    ∀ s : State, s.ph = .idle → s.cmd = none → seqStep s = .next s

/-- After its acceptance step no command's later step depends on the command port, and none changes it: what HOST
does to its record has no effect (R76, R191).
Rests on the spec's own choices D21; logs 22, 23 and 27. -/
def Obligations.LaterStepsIgnoreCommandPort : Prop :=
  ∀ (s t : State) (c : Option CmdRecord), s.ph ≠ .idle → seqStep s = .next t →
    t.cmd = s.cmd ∧ seqStep { s with cmd := c } = .next { t with cmd := c }

/-! ### Frames (R22, R60, R101 to R105, R131 to R139) -/

/-- `WF` is R22's predicate with its strict bounds, says nothing of the data bytes, and holds of every Frame. -/
def Obligations.FrameWellFormedness : Prop :=
  (∀ f : RawFrame, f.wf = true ↔ LegalFrame f) ∧ (∀ (f : RawFrame) (d : Payload), { f with data := d }.wf = f.wf) ∧
    ∀ g : Frame, LegalFrame g.raw

/-- FRAME_NEW on legal operands completes with the frame R131 builds; bytes from `n` on are PAD (R131; PAD: log 18).
The block and everything around it is otherwise unchanged.
Rests on the spec's own choices D10, D29; logs 18 and 19. -/
def Obligations.FrameNewConstructs : Prop :=
  ∀ (id n : Word) (data : Payload) (remote extended : Bool) (s : State), Ready s → LegalId extended id → n.toNat ≤ 8 →
    ∃ f : Frame, exec (.frameNew id n data remote extended) s = .next (completed s (.frame f)) ∧
      f.raw.id = id ∧ f.raw.ext = extended ∧ f.raw.rtr = remote ∧ f.raw.len.toNat = n.toNat ∧
      ∀ i, i < 8 → payloadByte f.raw.data i = if i < n.toNat then payloadByte data i else params.pad

/-- FRAME_NEW on an identifier outside its mode's bound or on more than 8 bytes raises InvalidFrameParameters and
reports both tests (R131, R221).
Rests on the spec's own choices D15, D16; log 19. -/
def Obligations.FrameNewRefuses : Prop :=
  ∀ (id n : Word) (data : Payload) (remote extended : Bool) (s : State), Ready s →
    ¬ (LegalId extended id ∧ n.toNat ≤ 8) →
    exec (.frameNew id n data remote extended) s =
      .next (faulted s .invalidFrameParameters (frameFaultInfo extended id n.toNat))

/-- The laws of FRAME_NEW (R132): (a) the frame is well formed; (b) the four accessors give the operands back; (c) the
payload comes back as exactly `n` bytes, and more than 8 fail; (d) identifiers outside the bounds fail. -/
def Obligations.FrameNewLaws : Prop :=
  ∀ (id n : Word) (data : Payload) (remote extended : Bool) (s : State), Ready s →
    (LegalId extended id ∧ n.toNat ≤ 8 →
      ∃ (f : Frame) (t : State), exec (.frameNew id n data remote extended) s = .next t ∧ t.result = some (.frame f) ∧
        LegalFrame f.raw ∧
        (∃ u, exec (.frameId f.raw) t = .next u ∧ u.result = some (.word id)) ∧
        (∃ u, exec (.frameIsExtended f.raw) t = .next u ∧ u.result = some (.flag extended)) ∧
        (∃ u, exec (.frameIsRtr f.raw) t = .next u ∧ u.result = some (.flag remote)) ∧
        ∃ u, exec (.frameData f.raw) t = .next u ∧
          u.result = some (.bytes (n.setWidth 4) ((payloadList data).take n.toNat))) ∧
    (¬ LegalId extended id ∨ 8 < n.toNat →
      ∃ t, exec (.frameNew id n data remote extended) s = .next t ∧ t.fault = true ∧ t.result = none)

/-- FRAME_ID: the full identifier field of a legal frame, and the fault of an illegal one (R133).
Rests on the spec's own choices D16, D26. -/
def Obligations.FrameIdReturnsIdentifier : Prop :=
  ∀ (f : RawFrame) (s : State), Ready s → opcode (.frameId f) = 0x2#4 ∧
    (LegalFrame f → exec (.frameId f) s = .next (completed s (.word f.id))) ∧
    (¬ LegalFrame f → exec (.frameId f) s =
      .next (faulted s .invalidFrameParameters (frameFaultInfo f.ext f.id f.len.toNat)))

/-- FRAME_IS_EXTENDED: the addressing mode of a legal frame, and the fault of an illegal one (R134).
Rests on the spec's own choices D16, D26. -/
def Obligations.FrameIsExtendedReturnsMode : Prop :=
  ∀ (f : RawFrame) (s : State), Ready s → opcode (.frameIsExtended f) = 0x3#4 ∧
    (LegalFrame f → exec (.frameIsExtended f) s = .next (completed s (.flag f.ext))) ∧
    (¬ LegalFrame f → exec (.frameIsExtended f) s =
      .next (faulted s .invalidFrameParameters (frameFaultInfo f.ext f.id f.len.toNat)))

/-- FRAME_IS_RTR: the remote-request flag of a legal frame, and the fault of an illegal one (R135).
Rests on the spec's own choices D16, D26. -/
def Obligations.FrameIsRtrReturnsFlag : Prop :=
  ∀ (f : RawFrame) (s : State), Ready s → opcode (.frameIsRtr f) = 0x4#4 ∧
    (LegalFrame f → exec (.frameIsRtr f) s = .next (completed s (.flag f.rtr))) ∧
    (¬ LegalFrame f → exec (.frameIsRtr f) s =
      .next (faulted s .invalidFrameParameters (frameFaultInfo f.ext f.id f.len.toNat)))

/-- FRAME_DATA: the length and exactly that many bytes in index order, and the fault of an illegal frame (R136).
Rests on the spec's own choices D16, D26. -/
def Obligations.FrameDataReturnsPayload : Prop :=
  ∀ (f : RawFrame) (s : State), Ready s → opcode (.frameData f) = 0x5#4 ∧
    (LegalFrame f → ∃ bytes : List Byte, bytes.length = f.len.toNat ∧
      (∀ i, i < f.len.toNat → bytes[i]? = some (payloadByte f.data i)) ∧
      exec (.frameData f) s = .next (completed s (.bytes f.len bytes))) ∧
    (¬ LegalFrame f → exec (.frameData f) s =
      .next (faulted s .invalidFrameParameters (frameFaultInfo f.ext f.id f.len.toNat)))

/-- SERIALIZE: the four words of R138 in concatenation form, and the fault of an illegal frame.
Rests on the spec's own choices D6, D9, D11, D26, D27; log 17. -/
def Obligations.SerializeReturnsWords : Prop :=
  ∀ (f : RawFrame) (s : State), Ready s → opcode (.serialize f) = 0x6#4 ∧
    (LegalFrame f → exec (.serialize f) s = .next (completed s (.words
      (0#28 ++ f.len)
      (if f.ext then f.id.extractLsb' 0 29 ++ 1#1 ++ BitVec.ofBool f.rtr ++ 0#1
        else f.id.extractLsb' 0 11 ++ 0#18 ++ 0#1 ++ BitVec.ofBool f.rtr ++ 0#1)
      (f.data.b3 ++ f.data.b2 ++ f.data.b1 ++ f.data.b0)
      (f.data.b7 ++ f.data.b6 ++ f.data.b5 ++ f.data.b4)))) ∧
    (¬ LegalFrame f → exec (.serialize f) s =
      .next (faulted s .invalidFrameParameters (frameFaultInfo f.ext f.id f.len.toNat)))

/-- The identifier word assembled from the fields of LAYOUT is R101's concatenation, and for a well-formed frame it
is R101's shift form.
Rests on the spec's own choices D6, D11; log 17. -/
def Obligations.IdentifierWordLayout : Prop :=
  ∀ f : RawFrame,
    (f.ext = true → idWord f = f.id.extractLsb' 0 29 ++ 1#1 ++ BitVec.ofBool f.rtr ++ 0#1 ∧
      idWord f = (f.id <<< 3) ||| 0x4#32 ||| (flagWord f.rtr <<< 1)) ∧
    (f.ext = false → idWord f = f.id.extractLsb' 0 11 ++ 0#18 ++ 0#1 ++ BitVec.ofBool f.rtr ++ 0#1 ∧
      idWord f = (f.id <<< 21) ||| (flagWord f.rtr <<< 1))

/-- The data-length word is the length widened with zeros: TGT, TIME and the reserved bits are 0, for a remote frame
too (R102).
Rests on the spec's own choices D6; log 17. -/
def Obligations.LengthWordLayout : Prop :=
  ∀ f : RawFrame, tdtWord f = f.len.setWidth 32 ∧ (tdtWord f).extractLsb' 0 4 = f.len ∧
    ∀ k, 4 ≤ k → (tdtWord f).getLsbD k = false

/-- The request word is the identifier word with bit 0 set (R103).
Rests on the spec's own choices D6; log 17. -/
def Obligations.RequestWordLayout : Prop := ∀ f : RawFrame, requestWord f = idWord f ||| 0x1#32

/-- The data words hold the payload bytes in little-endian lanes (R60).
Rests on the spec's own choices D9; log 17. -/
def Obligations.DataWordLanes : Prop :=
  ∀ f : RawFrame, tdlWord f = f.data.b3 ++ f.data.b2 ++ f.data.b1 ++ f.data.b0 ∧
    tdhWord f = f.data.b7 ++ f.data.b6 ++ f.data.b5 ++ f.data.b4 ∧
    ∀ i, i < 8 → ((if i < 4 then tdlWord f else tdhWord f).extractLsb' (8 * (i % 4)) 8) = payloadByte f.data i

/-- The laws of the serialiser (R139): (a) it is injective on well-formed frames, the fields being read back from
their bits; (b) bit 0 of the identifier word is 0; (c) the length word is at most 8; (d) its bits 31:4 are 0.
Rests on the spec's own choices D6, D9, D11, and R139 is marked derived from R138; log 17. -/
def Obligations.SerializerLaws : Prop :=
  (∀ f g : RawFrame, LegalFrame f → LegalFrame g → (serialWords f = serialWords g ↔ f = g)) ∧
    ∀ f : RawFrame, LegalFrame f →
      (tdtWord f).extractLsb' 0 4 = f.len ∧ (idWord f).getLsbD 2 = f.ext ∧ (idWord f).getLsbD 1 = f.rtr ∧
      (f.ext = false → ((idWord f).extractLsb' 21 11).setWidth 32 = f.id) ∧
      (f.ext = true → ((idWord f).extractLsb' 3 29).setWidth 32 = f.id) ∧
      (idWord f).getLsbD 0 = false ∧ (tdtWord f).toNat ≤ 8 ∧ ∀ k, 4 ≤ k → (tdtWord f).getLsbD k = false

/-! ### Bit timing (R104, R106, R107, R161, R165) -/

/-- The prescaler function of R161 in exact arithmetic.
Rests on the spec's own choices D12, D13. -/
def Obligations.PrescalerFunction : Prop :=
  ∀ clock baud : Word,
    (baud = 0#32 → prescaler clock baud = .error ⟨.baudRateZero, 0#32⟩) ∧
    (baud ≠ 0#32 → clock.toNat / (baud.toNat * 16) = 0 → prescaler clock baud = .error ⟨.prescalerZero, 0#32⟩) ∧
    (baud ≠ 0#32 → 512 ≤ clock.toNat / (baud.toNat * 16) →
      prescaler clock baud = .error ⟨.prescalerOverflow, BitVec.ofNat 32 (clock.toNat / (baud.toNat * 16))⟩) ∧
    (baud ≠ 0#32 → 1 ≤ clock.toNat / (baud.toNat * 16) → clock.toNat / (baud.toNat * 16) < 512 →
      ∃ p : Word, prescaler clock baud = .ok p ∧ p.toNat = clock.toNat / (baud.toNat * 16))

/-- Corner cases of the prescaler (R162): no wrap-around of the product, a zero clock, the smallest and the largest
prescaler, and no wrap-around of the minus-one encoding.
Rests on the spec's own choices D12, D13; log 19. -/
def Obligations.PrescalerCorners : Prop :=
  ∀ clock baud : Word,
    (2 ^ 28 ≤ baud.toNat → prescaler clock baud = .error ⟨.prescalerZero, 0#32⟩) ∧
    (baud ≠ 0#32 → clock = 0#32 → prescaler clock baud = .error ⟨.prescalerZero, 0#32⟩) ∧
    (baud ≠ 0#32 → clock.toNat < 16 * baud.toNat → prescaler clock baud = .error ⟨.prescalerZero, 0#32⟩) ∧
    (baud ≠ 0#32 → clock.toNat = 16 * baud.toNat → prescaler clock baud = .ok 1#32) ∧
    ∀ p : Word, prescaler clock baud = .ok p → (p - 1#32).toNat = p.toNat - 1 ∧ (p - 1#32).toNat ≤ 510

/-- The timing word assembled from the fields of LAYOUT is R104's word, field by field.
Rests on the spec's own choices D8; log 17. -/
def Obligations.TimingWordLayout : Prop :=
  ∀ p : Word, 1 ≤ p.toNat → p.toNat ≤ 511 →
    btrWord p = 0x001C0000#32 ||| ((p - 1#32).extractLsb' 0 10).setWidth 32 ∧
    (btrWord p).extractLsb' 30 2 = 0#2 ∧ (btrWord p).extractLsb' 26 4 = 0#4 ∧ (btrWord p).extractLsb' 24 2 = 0#2 ∧
    (btrWord p).getLsbD 23 = false ∧ (btrWord p).extractLsb' 20 3 = 1#3 ∧ (btrWord p).extractLsb' 16 4 = 12#4 ∧
    (btrWord p).extractLsb' 10 6 = 0#6 ∧ ((btrWord p).extractLsb' 0 10).toNat = p.toNat - 1

/-- BTR_ENCODE returns the timing word of the prescaler, or raises the prescaler's fault; CFG is not read (R165).
Rests on the spec's own choices D8, D12, D13, D16, D27; log 17. -/
def Obligations.BtrEncodeReturnsTimingWord : Prop :=
  ∀ (clock baud : Word) (s : State), Ready s → opcode (.btrEncode clock baud) = 0x7#4 ∧
    (baud = 0#32 → exec (.btrEncode clock baud) s = .next (faulted s .baudRateZero 0#32)) ∧
    (baud ≠ 0#32 → clock.toNat / (baud.toNat * 16) = 0 →
      exec (.btrEncode clock baud) s = .next (faulted s .prescalerZero 0#32)) ∧
    (baud ≠ 0#32 → 512 ≤ clock.toNat / (baud.toNat * 16) → exec (.btrEncode clock baud) s =
      .next (faulted s .prescalerOverflow (BitVec.ofNat 32 (clock.toNat / (baud.toNat * 16))))) ∧
    (baud ≠ 0#32 → 1 ≤ clock.toNat / (baud.toNat * 16) → clock.toNat / (baud.toNat * 16) < 512 →
      exec (.btrEncode clock baud) s = .next (completed s (.word
        (0x001C0000#32 ||| BitVec.ofNat 32 (clock.toNat / (baud.toNat * 16) - 1)))))

/-- The three master-control words change one bit each of the value read (R106), and the three poll tests look at one
bit each (R107).
Rests on the spec's own choices D7; log 17. -/
def Obligations.ControlWordsAndPollTests : Prop :=
  ∀ v : Word, wakeWord v = v &&& 0xFFFFFFFD#32 ∧ initWord v = v ||| 0x00000001#32 ∧ exitWord v = v &&& 0xFFFFFFFE#32 ∧
    (wakeDone v = true ↔ v.getLsbD 1 = false) ∧ (Machine.initEntered v = true ↔ v.getLsbD 0 = true) ∧
    (initLeft v = true ↔ v.getLsbD 0 = false)

/-! ### CONFIGURE (R170 to R177) -/

/-- The acceptance of CONFIGURE: SequenceError 8 once configured, before the operands are looked at; the prescaler's
faults before any external action; else the prescaler is latched and CF_EN is next (R171).
Rests on the spec's own choices D12, D14, D16, D20; log 22 for the emptied result port. -/
def Obligations.ConfigureAcceptance : Prop :=
  ∀ (clock baud : Word) (s : State), Ready s →
    (s.cfg = true → exec (.configure clock baud) s = .next (faulted s .sequenceError 0x00000008#32)) ∧
    (s.cfg = false → ∀ x, prescaler clock baud = .error x →
      exec (.configure clock baud) s = .next (faulted s x.code x.info)) ∧
    (s.cfg = false → ∀ p, prescaler clock baud = .ok p → exec (.configure clock baud) s =
      .next { s with cmd := none, result := none, busy := true, pre := p, ph := .cfEn })

/-- Enable and reset pulse: three bus-control actions in order; the assertion resets every peripheral register to its
reset word, every TXRQ to 0 and every mailbox to Empty (R172, R57, R48; the other mailbox bits: log 8).
Rests on the spec's own choices D2, D23; logs 8 and 17. -/
def Obligations.ConfigureResetPulse : Prop :=
  (∀ s : State, s.ph = .cfEn → seqStep s =
    .next { s with bcEn := true, trace := .busCtl .en :: s.trace, ph := .cfRstA }) ∧
  (∀ s : State, s.ph = .cfRstA → ∃ p : Periph, seqStep s =
      .next { s with bcRst := true, trace := .busCtl .rstAssert :: s.trace, ph := .cfRstD, periph := p,
                     draws := s.draws + 12 } ∧
      p.mcr = 0x00010002#32 ∧ p.msr = 0x00000C02#32 ∧ tsrValue p = 0x1C000000#32 ∧ p.btr = 0x01230000#32 ∧
      ∀ m, (getBox p m).mbs = .empty ∧ (getBox p m).ti.getLsbD 0 = false) ∧
  ∀ s : State, s.ph = .cfRstD → seqStep s =
    .next { s with bcRst := false, trace := .busCtl .rstDeassert :: s.trace, ph := .cfWakeRd }

/-- The request writes: MCR is read into the latch, and the latch is written back with one bit changed; nothing else
moves (R173, R106).
Rests on the spec's own choices D7; logs 16 and 17. -/
def Obligations.ConfigureRequestWrites : Prop :=
  (∀ (s : State) (p q : Phase), busReady s = true →
    (p, q) ∈ [(Phase.cfWakeRd, Phase.cfWakeWr), (.cfInitRd, .cfInitWr), (.cfExitRd, .cfExitWr)] → s.ph = p →
    seqStep s = .next { s with mcrv := s.periph.mcr, trace := .read .mcr s.periph.mcr :: s.trace, ph := q }) ∧
  (∀ (s : State) (p q : Phase) (v : Word), busReady s = true →
    (p, q, v) ∈ [(Phase.cfWakeWr, Phase.cfWakePoll, s.mcrv &&& 0xFFFFFFFD#32),
      (.cfInitWr, .cfInitPoll, s.mcrv ||| 0x00000001#32), (.cfExitWr, .cfExitPoll, s.mcrv &&& 0xFFFFFFFE#32)] →
    s.ph = p →
    seqStep s = .next { s with periph := { s.periph with mcr := v }, trace := .write .mcr v :: s.trace, ph := q })

/-- The timing write: one write of the whole word, which takes effect exactly in initialization mode (R174, R55).
Rests on the spec's own choices D8, D24; logs 13 and 17. -/
def Obligations.ConfigureTimingWrite : Prop :=
  ∀ s : State, busReady s = true → s.ph = .cfBtrWr → 1 ≤ s.pre.toNat → s.pre.toNat ≤ 511 →
    (s.periph.msr.getLsbD 0 = true → seqStep s =
      .next { s with periph := { s.periph with btr := 0x001C0000#32 ||| (s.pre - 1#32) },
                     trace := .write .btr (0x001C0000#32 ||| (s.pre - 1#32)) :: s.trace, ph := .cfExitRd }) ∧
    (s.periph.msr.getLsbD 0 = false → seqStep s =
      .next { s with trace := .write .btr (0x001C0000#32 ||| (s.pre - 1#32)) :: s.trace, ph := .cfExitRd })

/-- The three polls: each step reads MSR once and tests one bit; the exit poll's last read completes the command and
sets CFG (R175, R176).
Rests on the spec's own choices D18; logs 17 and 22. -/
def Obligations.ConfigurePolls : Prop :=
  ∀ s : State, busReady s = true →
    (s.ph = .cfWakePoll → seqStep s = .next { s with
      trace := .read .msr s.periph.msr :: s.trace,
      ph := if s.periph.msr.getLsbD 1 then .cfWakePoll else .cfInitRd }) ∧
    (s.ph = .cfInitPoll → seqStep s = .next { s with
      trace := .read .msr s.periph.msr :: s.trace,
      ph := if s.periph.msr.getLsbD 0 then .cfBtrWr else .cfInitPoll }) ∧
    (s.ph = .cfExitPoll → s.periph.msr.getLsbD 0 = true → seqStep s = .next { s with
      trace := .read .msr s.periph.msr :: s.trace }) ∧
    (s.ph = .cfExitPoll → s.periph.msr.getLsbD 0 = false → seqStep s = .next { s with
      trace := .read .msr s.periph.msr :: s.trace, cfg := true, result := some .unit, busy := false, ph := .idle })

/-- CONFIGURE completes when PERIPH acknowledges, however many polls it lets pass (`a`, `b`, `c` reads without and one
with each acknowledge): the trace is R177's with the values of R170's example, CFG is set, BTR holds the timing word
and every mailbox is Empty (R170, R177; the reset words are the spec's general knowledge, log 17).
Its premises: PERIPH takes the three acknowledges (fairness, R271) where `turns` puts them, which supposes the clock
running (R265) and the lines wired (R266; log 21); and no other agent touches the peripheral (R272; log 20).
Rests on the spec's own choices D2, D7, D8, D23, D24; logs 1, 2, 8, 16, 17, 20, 21 and 25. -/
def Obligations.ConfigureCompletes : Prop :=
  ∀ (s : State) (clock baud p : Word) (a b c : Nat) (rest : List Turn), Ready s → s.cfg = false →
    s.cmd = some (encode (.configure clock baud)) → prescaler clock baud = .ok p →
    s.turns = List.replicate (6 + a) .seq ++ .periph .ackWake :: (List.replicate (3 + b) .seq ++
      .periph .ackInit :: (List.replicate (4 + c) .seq ++ .periph .ackExit :: .seq :: rest)) →
    ∃ u : State, Host.Core.run Sys2Proof.core (17 + a + b + c) s = .next u ∧
      u.cfg = true ∧ u.busy = false ∧ u.fault = false ∧ u.ph = .idle ∧ u.result = some .unit ∧ u.turns = rest ∧
      u.lastTx = s.lastTx ∧ u.bcEn = true ∧ u.bcRst = false ∧
      u.periph.mcr = 0x00010000#32 ∧ u.periph.msr = 0x00000C00#32 ∧ tsrValue u.periph = 0x1C000000#32 ∧
      u.periph.btr = 0x001C0000#32 ||| (p - 1#32) ∧ (∀ m, (getBox u.periph m).mbs = .empty) ∧
      u.trace.reverse = s.trace.reverse ++
        ([Action.busCtl .en, .busCtl .rstAssert, .busCtl .rstDeassert, .read .mcr 0x00010002#32,
          .write .mcr 0x00010000#32] ++ List.replicate a (.read .msr 0x00000C02#32) ++
          [.read .msr 0x00000C00#32, .read .mcr 0x00010000#32, .write .mcr 0x00010001#32] ++
          List.replicate b (.read .msr 0x00000C00#32) ++
          [.read .msr 0x00000C01#32, .write .btr (0x001C0000#32 ||| (p - 1#32)), .read .mcr 0x00010001#32,
            .write .mcr 0x00010000#32] ++ List.replicate c (.read .msr 0x00000C01#32) ++ [.read .msr 0x00000C00#32])

/-- A poll whose acknowledge does not come goes on for ever: after any number of steps of SEQ alone nothing has changed
but the trace, one read of MSR a step; it is no fault (R175, R233).
Rests on the spec's own choices D18; logs 2 and 17. -/
def Obligations.UnacknowledgedPollHangs : Prop :=
  ∀ (n : Nat) (s : State) (rest : List Turn), busReady s = true →
    (s.ph = .cfWakePoll ∧ s.periph.msr.getLsbD 1 = true ∨ s.ph = .cfInitPoll ∧ s.periph.msr.getLsbD 0 = false ∨
      s.ph = .cfExitPoll ∧ s.periph.msr.getLsbD 0 = true) →
    s.turns = List.replicate n .seq ++ rest →
    Host.Core.run Sys2Proof.core n s =
      .next { s with turns := rest, trace := List.replicate n (.read .msr s.periph.msr) ++ s.trace }

/-! ### TRANSMIT (R190 to R205) -/

/-- `SEL` picks the lowest mailbox whose empty flag is set and looks at no other bit (R108, R195).
Rests on the spec's own choices D4; log 17. -/
def Obligations.MailboxSelection : Prop :=
  ∀ t : Word, selectMailbox t =
    if t.getLsbD 26 then some 0 else if t.getLsbD 27 then some 1 else if t.getLsbD 28 then some 2 else none

/-- TMEm of the value read from TSR is 1 exactly when mailbox m is Empty, whatever the other bits hold; the other bits
read as stored (R50, R68).
Rests on the spec's own choices D4, D24; logs 15 and 17. -/
def Obligations.EmptyFlagsFollowMailboxes : Prop :=
  ∀ p : Periph, (∀ m : MailboxIndex, (tsrValue p).getLsbD (26 + m.val) = true ↔ (getBox p m).mbs = .empty) ∧
    ∀ k, k < 26 ∨ 29 ≤ k → (tsrValue p).getLsbD k = p.tsr.getLsbD k

/-- The acceptance of TRANSMIT: SequenceError 9 before CONFIGURE, whatever the frame is; then the frame-operand
check; else the whole frame is latched and the status read is next (R191).
Rests on the spec's own choices D16, D20, D21, D26; log 22 for the emptied result port. -/
def Obligations.TransmitAcceptance : Prop :=
  ∀ (f : RawFrame) (s : State), Ready s →
    (s.cfg = false → exec (.transmit f) s = .next (faulted s .sequenceError 0x00000009#32)) ∧
    (s.cfg = true → ¬ LegalFrame f → exec (.transmit f) s =
      .next (faulted s .invalidFrameParameters (frameFaultInfo f.ext f.id f.len.toNat))) ∧
    (s.cfg = true → LegalFrame f → exec (.transmit f) s =
      .next { s with cmd := none, result := none, busy := true, fl := f, ph := .txTsrRd })

/-- The status read: one read of TSR, latched; the lowest Empty mailbox is selected in the same step, or, when all are
Pending, the command completes as DROPPED with no write (R192, R194, R196).
Rests on the spec's own choices D17; logs 14 and 17. -/
def Obligations.TransmitStatusRead : Prop :=
  ∀ s : State, busReady s = true → s.ph = .txTsrRd →
    (∀ m, (getBox s.periph m).mbs = .empty → (∀ k, k < m → (getBox s.periph k).mbs = .pending) →
      seqStep s = .next { s with
        tsrv := tsrValue s.periph, trace := .read .tsr (tsrValue s.periph) :: s.trace, mb := m, ph := .txDlcWr }) ∧
    ((∀ m, (getBox s.periph m).mbs = .pending) →
      seqStep s = .next { s with
        tsrv := tsrValue s.periph, trace := .read .tsr (tsrValue s.periph) :: s.trace, lastTx := .dropped,
        result := some (.outcome .dropped), busy := false, ph := .idle })

/-- The four data writes: each phase writes one word of the latched frame into one register of the selected Empty
mailbox and nothing else (R197 to R200).
Rests on the spec's own choices D6, D9, D11, D24; log 17. -/
def Obligations.TransmitDataWrites : Prop :=
  ∀ s : State, busReady s = true → (getBox s.periph s.mb).mbs = .empty →
    (s.ph = .txDlcWr → seqStep s = .next { s with
      periph := setBox s.periph s.mb { getBox s.periph s.mb with tdt := s.fl.len.setWidth 32 },
      trace := .write (.tdt s.mb) (s.fl.len.setWidth 32) :: s.trace, ph := .txIdWr }) ∧
    (s.ph = .txIdWr → ∀ w : Word, w = (if s.fl.ext then s.fl.id.extractLsb' 0 29 ++ 1#1 ++ BitVec.ofBool s.fl.rtr ++ 0#1
        else s.fl.id.extractLsb' 0 11 ++ 0#18 ++ 0#1 ++ BitVec.ofBool s.fl.rtr ++ 0#1) →
      seqStep s = .next { s with
        periph := setBox s.periph s.mb { getBox s.periph s.mb with ti := w },
        trace := .write (.ti s.mb) w :: s.trace, ph := .txDlWr }) ∧
    (s.ph = .txDlWr → ∀ w : Word, w = s.fl.data.b3 ++ s.fl.data.b2 ++ s.fl.data.b1 ++ s.fl.data.b0 →
      seqStep s = .next { s with
        periph := setBox s.periph s.mb { getBox s.periph s.mb with tdl := w },
        trace := .write (.tdl s.mb) w :: s.trace, ph := .txDhWr }) ∧
    (s.ph = .txDhWr → ∀ w : Word, w = s.fl.data.b7 ++ s.fl.data.b6 ++ s.fl.data.b5 ++ s.fl.data.b4 →
      seqStep s = .next { s with
        periph := setBox s.periph s.mb { getBox s.periph s.mb with tdh := w },
        trace := .write (.tdh s.mb) w :: s.trace, ph := .txRqWr })

/-- The request write hands the mailbox over in the same step and completes the command as QUEUED (R201, R202, R51).
Rests on the spec's own choices D6, D17, D24; logs 14 and 17. -/
def Obligations.TransmitRequestWrite : Prop :=
  ∀ s : State, busReady s = true → (getBox s.periph s.mb).mbs = .empty → s.ph = .txRqWr →
    seqStep s = .next { s with
      periph := setBox s.periph s.mb
        { getBox s.periph s.mb with ti := idWord s.fl ||| 0x00000001#32, mbs := .pending },
      trace := .write (.ti s.mb) (idWord s.fl ||| 0x00000001#32) :: s.trace,
      lastTx := .queued s.mb, result := some (.outcome (.queued s.mb)), busy := false, ph := .idle }

/-- TRANSMIT of a legal frame with mailbox m the lowest Empty one: after the acceptance and six more steps of SEQ the
four registers hold the frame's words, the mailbox is Pending, and the other mailboxes, MCR, MSR and BTR are
unchanged (R204, R202).
Rests on the spec's own choices D6, D17, D24; logs 1, 2, 14 and 17. -/
def Obligations.TransmitFillsMailbox : Prop :=
  ∀ (s : State) (f : RawFrame) (m : MailboxIndex) (rest : List Turn), Ready s → s.cfg = true → busReady s = true →
    LegalFrame f → s.cmd = some (encode (.transmit f)) → (getBox s.periph m).mbs = .empty →
    (∀ k, k < m → (getBox s.periph k).mbs = .pending) → s.turns = List.replicate 7 .seq ++ rest →
    ∃ u : State, Host.Core.run Sys2Proof.core 7 s = .next u ∧
      getBox u.periph m = ⟨idWord f ||| 0x1#32, f.len.setWidth 32, tdlWord f, tdhWord f, .pending⟩ ∧
      (tsrValue u.periph).getLsbD (26 + m.val) = false ∧ (∀ k, k ≠ m → getBox u.periph k = getBox s.periph k) ∧
      u.periph.mcr = s.periph.mcr ∧ u.periph.msr = s.periph.msr ∧ u.periph.btr = s.periph.btr ∧
      u.lastTx = .queued m ∧ u.result = some (.outcome (.queued m)) ∧ u.busy = false ∧ u.ph = .idle ∧
      u.fault = false ∧ u.cfg = true ∧ u.turns = rest

/-- Whatever PERIPH does between the steps of SEQ, a TRANSMIT of a legal frame ends after its acceptance and at most
six actions, and its trace is one of R203's two: the status read alone (DROPPED), or the status read and the five
writes of the frame's words to the one mailbox selected from the value read (QUEUED) (R203, R73, R71).
`ts` has seven turns of SEQ; where the command ends before the last of them, the turns left over change nothing of the
block, and its result stays on the port.
Rests on the spec's own choices D6, D17, D24; logs 1, 2, 3 (idle turns), 14, 17, 20, 22 (the result stays) and 32. -/
def Obligations.TransmitTraceUnderInterleaving : Prop :=
  ∀ (s : State) (f : RawFrame) (ts rest : List Turn), Invariant s → Ready s → s.cfg = true → LegalFrame f →
    s.cmd = some (encode (.transmit f)) → s.turns = ts ++ rest → (∀ t ∈ ts, quietTurn t = true) →
    ts.count .seq = 7 →
    ∃ u : State, Host.Core.run Sys2Proof.core ts.length s = .next u ∧ u.busy = false ∧ u.ph = .idle ∧
      u.fault = false ∧ u.cfg = true ∧ u.turns = rest ∧
      ∃ v : Word,
        (selectMailbox v = none ∧ u.trace = .read .tsr v :: s.trace ∧ u.lastTx = .dropped ∧
          u.result = some (.outcome .dropped)) ∨
        ∃ m : MailboxIndex, selectMailbox v = some m ∧
          u.trace = [Action.write (.ti m) (idWord f ||| 0x1#32), .write (.tdh m) (tdhWord f),
            .write (.tdl m) (tdlWord f), .write (.ti m) (idWord f), .write (.tdt m) (f.len.setWidth 32),
            .read .tsr v] ++ s.trace ∧
          u.lastTx = .queued m ∧ u.result = some (.outcome (.queued m))

/-! ### Faults, reset and whole-machine rules -/

/-- Faults are precise and early: a fault is raised only in the acceptance step of a ready block, for a command or a
reserved opcode, before any external action and any write to the block but the fault entry itself; a command that has
left its acceptance step cannot fault (R229).
Rests on the spec's own choices D14, D16. -/
def Obligations.FaultsAreEarlyAndPrecise : Prop :=
  (∀ (i : Instr) (s t : State), exec i s = .next t → s.fault = false → t.fault = true →
    Ready s ∧ t.fcode ≠ .none ∧ t = faulted s t.fcode t.finfo) ∧
  (∀ s t : State, seqStep s = .next t → s.fault = false → t.fault = true →
    Ready s ∧ t.fcode ≠ .none ∧ t = faulted s t.fcode t.finfo) ∧
  ∀ s t : State, s.ph ≠ .idle → seqStep s = .next t → t.fault = s.fault ∧ t.fcode = s.fcode ∧ t.finfo = s.finfo

/-- A command with legal operands, accepted in the right configuration state, raises no fault; one with illegal
operands does (R111, R93).
Rests on the spec's own choices D12, D15, D20, D26; log 19. -/
def Obligations.FaultExactlyOnIllegalOperands : Prop :=
  ∀ (i : Instr) (s : State), Ready s → (∀ clock baud, i = .configure clock baud → s.cfg = false) →
    (∀ f, i = .transmit f → s.cfg = true) →
    ∃ t, exec i s = .next t ∧ (t.fault = true ↔ i.wellFormed = false)

/-- The six frame commands, and BTR_ENCODE, are functions of their operands alone: in any two ready states, configured
or not, they complete with the same result or raise the same fault (R130; BTR_ENCODE: R165).
Rests on the spec's own choices D16, D26, D27. -/
def Obligations.PureCommandsIgnoreState : Prop :=
  ∀ (i : Instr) (s s' : State), (∀ clock baud, i ≠ .configure clock baud) → (∀ f, i ≠ .transmit f) →
    Ready s → Ready s' →
    (∃ r, exec i s = .next (completed s r) ∧ exec i s' = .next (completed s' r)) ∨
      ∃ code info, exec i s = .next (faulted s code info) ∧ exec i s' = .next (faulted s' code info)

/-- The bits of TSR and MSR that no rule names have no influence: the status read selects the same mailbox, and the
polls go the same way (R194, R107, U9).
Rests on the spec's own choices D4; logs 15 and 17. -/
def Obligations.UnnamedStatusBitsIgnored : Prop :=
  (∀ (s t : State) (w : Word), s.ph = .txTsrRd → seqStep s = .next t →
    ∃ t', seqStep (storePeriph { s.periph with tsr := w } s) = .next t' ∧ t'.ph = t.ph ∧ t'.mb = t.mb ∧
      t'.lastTx = t.lastTx ∧ t'.result = t.result ∧ t'.busy = t.busy) ∧
  ∀ (s t : State) (w : Word), s.ph = .cfWakePoll ∨ s.ph = .cfInitPoll ∨ s.ph = .cfExitPoll → seqStep s = .next t →
    w.getLsbD 0 = s.periph.msr.getLsbD 0 → w.getLsbD 1 = s.periph.msr.getLsbD 1 →
    ∃ t', seqStep (storePeriph { s.periph with msr := w } s) = .next t' ∧ t'.ph = t.ph ∧ t'.cfg = t.cfg ∧
      t'.busy = t.busy ∧ t'.result = t.result

/-- A halted block stays as it is: no agent's move but block reset changes a flag, the phase, a latch, the result or
the trace (R231).
Rests on the spec's own choices D16, D22; logs 3, 22 and 27. -/
def Obligations.HaltEndsOnlyByReset : Prop :=
  ∀ (t : Turn) (s u : State), s.ph = .halt → runTurn t s = .next u → (∀ l, t ≠ .host (.blockReset l)) →
    u = { s with cmd := u.cmd, periph := u.periph }

/-- Block reset from any state: the values of R29, whatever was going on; no external action, and the peripheral,
the bus-control bits and the command port are untouched (R29, R277; the latches' values are the move's, log 5).
Rests on the spec's own choices D22; logs 5 and 22. -/
def Obligations.BlockResetState : Prop :=
  ∀ (s : State) (l : Latches), runTurn (.host (.blockReset l)) s = .next { s with
    cfg := false, busy := false, fault := false, fcode := .none, finfo := 0#32, lastTx := .none, ph := .idle,
    fl := l.fl, tsrv := l.tsrv, mb := l.mb, pre := l.pre, mcrv := l.mcrv, result := none }

/-- The state after reset: the block state of R29 and R262, and the zeros it shows on the status port (R90).
Rests on the spec's own choices D22. -/
def Obligations.ResetBlockState : Prop :=
  State.reset.cfg = false ∧ State.reset.busy = false ∧ State.reset.fault = false ∧ State.reset.fcode = .none ∧
    State.reset.finfo = 0#32 ∧ State.reset.lastTx = .none ∧ State.reset.ph = .idle ∧ Ready State.reset ∧
    statusPort State.reset = ⟨false, false, false, 0#4, 0#32, 0#2, 0#2⟩

/-- CFG rises only at the completion of CONFIGURE and falls only at block reset (R23, R236).
Rests on the spec's own choices D20, D22; R236 is marked derived; log 17. -/
def Obligations.ConfiguredOnlyByConfigure : Prop :=
  ∀ (t : Turn) (s u : State), runTurn t s = .next u →
    (s.cfg = false → u.cfg = true → t = .seq ∧ s.ph = .cfExitPoll ∧ s.periph.msr.getLsbD 0 = false) ∧
    (s.cfg = true → u.cfg = false → ∃ l, t = .host (.blockReset l))

/-- LASTTX is written only by the completing step of TRANSMIT and by block reset (R24).
Rests on the spec's own choices D17, D22. -/
def Obligations.LastOutcomeOnlyByTransmit : Prop :=
  ∀ (t : Turn) (s u : State), runTurn t s = .next u → u.lastTx ≠ s.lastTx →
    (t = .seq ∧ s.ph = .txTsrRd ∧ u.lastTx = .dropped ∧ u.result = some (.outcome .dropped) ∧ u.ph = .idle) ∨
    (t = .seq ∧ s.ph = .txRqWr ∧ u.lastTx = .queued s.mb ∧ u.result = some (.outcome (.queued s.mb)) ∧
      u.ph = .idle) ∨
    ∃ l, t = .host (.blockReset l) ∧ u.lastTx = .none

/-- A mailbox becomes Pending only by the request write to it, and Empty only by its `Complete` or by the reset pulse;
and between TRANSMIT's status read and its last write a turn of PERIPH leaves every mailbox as it was but for
`Complete` of a Pending one (R50, R51, R52, R57, R73).
Rests on the spec's own choices D2, D24; logs 3, 14, 20 and 32. -/
def Obligations.MailboxStateChanges : Prop :=
  ∀ (t : Turn) (s u : State) (m : MailboxIndex), runTurn t s = .next u →
    ((getBox s.periph m).mbs = .empty → (getBox u.periph m).mbs = .pending →
      t = .seq ∧ s.ph = .txRqWr ∧ s.mb = m) ∧
    ((getBox s.periph m).mbs = .pending → (getBox u.periph m).mbs = .empty →
      (∃ o a b c d, t = .periph (.complete m o a b c d)) ∨ t = .seq ∧ s.ph = .cfRstA) ∧
    (∀ p, t = .periph p → writesMailbox s.ph = true →
      getBox u.periph m = getBox s.periph m ∨
        (getBox s.periph m).mbs = .pending ∧ ∃ o a b c d, p = .complete m o a b c d)

/-- `Complete(m)` of a Pending mailbox: Empty, TMEm 1, TXRQ 0, the outcome bits and the other bits as drawn; MCR, MSR,
BTR and the other mailboxes unchanged; of an Empty mailbox it is no step (R52).
Rests on the spec's own choices D24; logs 3, 9, 14 and 17. -/
def Obligations.CompleteEmptiesMailbox : Prop :=
  ∀ (p : Periph) (m : MailboxIndex) (o : BitVec 4) (a b c d : Word),
    ((getBox p m).mbs = .pending →
      (getBox (periphMove (.complete m o a b c d) p) m).mbs = .empty ∧
      (tsrValue (periphMove (.complete m o a b c d) p)).getLsbD (26 + m.val) = true ∧
      getBox (periphMove (.complete m o a b c d) p) m = ⟨a &&& 0xFFFFFFFE#32, b, c, d, .empty⟩ ∧
      (tsrValue (periphMove (.complete m o a b c d) p)).extractLsb' (8 * m.val) 4 = o ∧
      (∀ k, k ≠ m → getBox (periphMove (.complete m o a b c d) p) k = getBox p k) ∧
      (periphMove (.complete m o a b c d) p).mcr = p.mcr ∧ (periphMove (.complete m o a b c d) p).msr = p.msr ∧
      (periphMove (.complete m o a b c d) p).btr = p.btr) ∧
    ((getBox p m).mbs = .empty → periphMove (.complete m o a b c d) p = p)

/-- The acknowledge bits move only toward their request bits: SLAK falls only while SLEEP = 0, INAK rises only while
INRQ = 1 and falls only while INRQ = 0, SLAK never rises, and no move changes MCR or BTR (R53, R54, D24).
Rests on the spec's own choices D24; logs 3, 15, 16, 17 and 31. -/
def Obligations.AcknowledgesFollowRequests : Prop :=
  (∀ (m : PeriphMove) (p : Periph),
    (periphMove m p).mcr = p.mcr ∧ (periphMove m p).btr = p.btr ∧
    ((periphMove m p).msr.getLsbD 1 = true → p.msr.getLsbD 1 = true) ∧
    (p.mcr.getLsbD 1 = true → (periphMove m p).msr.getLsbD 1 = p.msr.getLsbD 1) ∧
    (p.mcr.getLsbD 0 = p.msr.getLsbD 0 → (periphMove m p).msr.getLsbD 0 = p.msr.getLsbD 0)) ∧
  ∀ p : Periph,
    (p.mcr.getLsbD 1 = false → (periphMove .ackWake p).msr.getLsbD 1 = false) ∧
    (p.mcr.getLsbD 0 = true → (periphMove .ackInit p).msr.getLsbD 0 = true) ∧
    (p.mcr.getLsbD 0 = false → (periphMove .ackExit p).msr.getLsbD 0 = false)

/-- What a bus write stores: MCR and the registers of an Empty mailbox exactly the word written, BTR only in
initialization mode, a word with TXRQ = 1 hands the mailbox over; a write to a Pending mailbox is a fault of the model
(R51, R55, R56; log 10, log 13).
Rests on the spec's own choices D24; logs 10, 13, 14 and 16. -/
def Obligations.BusWriteEffects : Prop :=
  ∀ (p : Periph) (m : MailboxIndex) (v : Word),
    writeReg p .mcr v = .ok { p with mcr := v } ∧
    (p.msr.getLsbD 0 = true → writeReg p .btr v = .ok { p with btr := v }) ∧
    (p.msr.getLsbD 0 = false → writeReg p .btr v = .ok p) ∧
    ((getBox p m).mbs = .empty →
      writeReg p (.tdt m) v = .ok (setBox p m { getBox p m with tdt := v }) ∧
      writeReg p (.tdl m) v = .ok (setBox p m { getBox p m with tdl := v }) ∧
      writeReg p (.tdh m) v = .ok (setBox p m { getBox p m with tdh := v }) ∧
      writeReg p (.ti m) v = .ok (setBox p m
        { getBox p m with ti := v, mbs := if v.getLsbD 0 then .pending else .empty })) ∧
    ((getBox p m).mbs = .pending → ∀ r ∈ [Reg.ti m, .tdt m, .tdl m, .tdh m],
      writeReg p r v = .error (.writeToPendingMailbox m))

/-- The address map of R66 with the default LAYOUT and BASE: the table's sixteen addresses, each a multiple of 4, and
each register found at its own (R63, R66).
Rests on the spec's own choices D4; log 17. -/
def Obligations.RegisterAddresses : Prop :=
  regAddress .mcr = 0x40006400#32 ∧ regAddress .msr = 0x40006404#32 ∧ regAddress .tsr = 0x40006408#32 ∧
    regAddress .btr = 0x4000641C#32 ∧
    (∀ m : MailboxIndex, regAddress (.ti m) = BitVec.ofNat 32 (0x40006400 + 0x180 + 0x10 * m.val) ∧
      regAddress (.tdt m) = BitVec.ofNat 32 (0x40006400 + 0x184 + 0x10 * m.val) ∧
      regAddress (.tdl m) = BitVec.ofNat 32 (0x40006400 + 0x188 + 0x10 * m.val) ∧
      regAddress (.tdh m) = BitVec.ofNat 32 (0x40006400 + 0x18C + 0x10 * m.val)) ∧
    ∀ r ∈ allRegs, (regAddress r).toNat % 4 = 0 ∧ regAt (regAddress r) = some r

/-- The state after reset meets the invariant (rests on log 6 for the peripheral registers).
Rests on the spec's own choices D22, D23; logs 5, 6, 7 and 17. -/
def Obligations.ResetMeetsInvariant : Prop := Invariant State.reset

/-- Every step keeps the invariant: the flags agree with the phase, the mode transitions are where the phase says,
the mailbox being written is Empty, TXRQ is 1 exactly in Pending mailboxes, the reserved bits of MCR are 0, and the
peripheral is in normal mode once configured (R23, R27, R40, R51 to R54, R57, R231, R236, R237).
Rests on the spec's own choices D20, D24; logs 3, 8, 9, 13 to 17, 20, 31 and 32. -/
def Obligations.StepKeepsInvariant : Prop := ∀ s t : State, Invariant s → step s = .next t → Invariant t

/-- From a state that meets the invariant no step stops: the block never writes a Pending mailbox, never makes a bus
access without clock or in reset, and never leaves the sixteen addresses (R57, R66, R205 (i), U4, U5).
Rests on the spec's own choices D24; logs 10 to 12 and 20. -/
def Obligations.InvariantStatesNeverStop : Prop := ∀ s : State, Invariant s → ∃ t, step s = .next t
end

