-- ==== Sys2Proof/Laws/Field.lean ====
section
/-! SUPPORT. What the bit-field operations do, bit by bit (R8). -/

namespace Sys2Proof.Laws

open Sys2Proof.Machine

/-- Bit `i` of a word holding `v` in field `f`. -/
theorem getLsbD_fieldPut (f : Field) (v : Word) (i : Nat) :
    (fieldPut f v).getLsbD i =
      (decide (i < 32) && decide (f.lsb ≤ i) && decide (i - f.lsb < f.width) && v.getLsbD (i - f.lsb)) := by
  by_cases hi : i < 32
  · by_cases hl : f.lsb ≤ i
    · have h32 : i - f.lsb < 32 := by omega
      simp [fieldPut, hi, hl, h32, Nat.not_lt.mpr hl]
    · simp [fieldPut, hl]
  · simp [fieldPut, hi]

/-- Bit `i` of a field's mask. -/
theorem getLsbD_fieldMask (f : Field) (i : Nat) :
    (fieldMask f).getLsbD i = (decide (i < 32) && decide (f.lsb ≤ i) && decide (i - f.lsb < f.width)) := by
  rw [fieldMask, getLsbD_fieldPut, BitVec.getLsbD_allOnes]
  by_cases hi : i < 32
  · have : i - f.lsb < 32 := by omega
    rw [decide_eq_true this, Bool.and_true]
  · simp [hi]

/-- Bit `i` after setting a field. -/
theorem getLsbD_fieldSet (f : Field) (w : Word) (i : Nat) :
    (fieldSet f w).getLsbD i = (w.getLsbD i || (fieldMask f).getLsbD i) := by simp [fieldSet]

/-- Bit `i` after clearing a field. -/
theorem getLsbD_fieldClear (f : Field) (w : Word) (i : Nat) :
    (fieldClear f w).getLsbD i = (w.getLsbD i && !(fieldMask f).getLsbD i) := by
  by_cases hi : i < 32
  · simp [fieldClear, hi]
  · simp [fieldClear, hi, BitVec.getLsbD_of_ge w i (by omega)]

/-- A bus access carries the whole word: XLEN is 32 (R7, R62). -/
@[simp] theorem busWord_eq (v : Word) : busWord v = v := by
  change (v.setWidth 32).setWidth 32 = v
  simp

/-- FW is 32: the clock operand is its lane's number (R7). -/
@[simp] theorem operand_fw (v : Word) : operand params.fw v = v.toNat := Nat.mod_eq_of_lt v.isLt

/-- BW is 32: the baud-rate operand is its lane's number (R7). -/
@[simp] theorem operand_bw (v : Word) : operand params.bw v = v.toNat := Nat.mod_eq_of_lt v.isLt

/-- A baud rate is 0 exactly when its lane is (R161). -/
theorem operand_bw_eq_zero (v : Word) : operand params.bw v = 0 ↔ v = 0#32 := by
  rw [operand_bw]
  exact ⟨fun h => BitVec.eq_of_toNat_eq h, fun h => by rw [h]; rfl⟩

/-- NW is 32: the slice length is its lane's number (R7). -/
@[simp] theorem operand_nw (v : Word) : operand params.nw v = v.toNat := Nat.mod_eq_of_lt v.isLt

/-- A field that was set reads as set. -/
theorem fieldBit_fieldSet_same (f : Field) (w : Word) (h : f.lsb < 32) (hw : 0 < f.width) :
    fieldBit f (fieldSet f w) = true := by
  rw [fieldBit, getLsbD_fieldSet, getLsbD_fieldMask]
  simp [h, hw]

/-- A field that was cleared reads as clear. -/
theorem fieldBit_fieldClear_same (f : Field) (w : Word) (h : f.lsb < 32) (hw : 0 < f.width) :
    fieldBit f (fieldClear f w) = false := by
  rw [fieldBit, getLsbD_fieldClear, getLsbD_fieldMask]
  simp [h, hw]

/-- Setting a field leaves a bit outside it alone. -/
theorem fieldBit_fieldSet_other (f g : Field) (w : Word) (h : (fieldMask g).getLsbD f.lsb = false) :
    fieldBit f (fieldSet g w) = fieldBit f w := by
  rw [fieldBit, getLsbD_fieldSet, h, Bool.or_false, fieldBit]

/-- Clearing a field leaves a bit outside it alone. -/
theorem fieldBit_fieldClear_other (f g : Field) (w : Word) (h : (fieldMask g).getLsbD f.lsb = false) :
    fieldBit f (fieldClear g w) = fieldBit f w := by
  rw [fieldBit, getLsbD_fieldClear, h, Bool.not_false, Bool.and_true, fieldBit]

end Sys2Proof.Laws
end

