-- ==== Sys2Proof/Laws/State.lean ====
section
/-! SUPPORT. One lemma per field and named update of the state, so that no later proof unfolds a record update; and
the mailbox accessors. -/

namespace Sys2Proof.Laws

open Sys2Proof.Machine

@[simp] theorem note_cfg (a : Action) (s : State) : (note a s).cfg = s.cfg := rfl
@[simp] theorem note_busy (a : Action) (s : State) : (note a s).busy = s.busy := rfl
@[simp] theorem note_fault (a : Action) (s : State) : (note a s).fault = s.fault := rfl
@[simp] theorem note_fcode (a : Action) (s : State) : (note a s).fcode = s.fcode := rfl
@[simp] theorem note_finfo (a : Action) (s : State) : (note a s).finfo = s.finfo := rfl
@[simp] theorem note_lastTx (a : Action) (s : State) : (note a s).lastTx = s.lastTx := rfl
@[simp] theorem note_ph (a : Action) (s : State) : (note a s).ph = s.ph := rfl
@[simp] theorem note_fl (a : Action) (s : State) : (note a s).fl = s.fl := rfl
@[simp] theorem note_tsrv (a : Action) (s : State) : (note a s).tsrv = s.tsrv := rfl
@[simp] theorem note_mb (a : Action) (s : State) : (note a s).mb = s.mb := rfl
@[simp] theorem note_pre (a : Action) (s : State) : (note a s).pre = s.pre := rfl
@[simp] theorem note_mcrv (a : Action) (s : State) : (note a s).mcrv = s.mcrv := rfl
@[simp] theorem note_cmd (a : Action) (s : State) : (note a s).cmd = s.cmd := rfl
@[simp] theorem note_result (a : Action) (s : State) : (note a s).result = s.result := rfl
@[simp] theorem note_periph (a : Action) (s : State) : (note a s).periph = s.periph := rfl
@[simp] theorem note_bcEn (a : Action) (s : State) : (note a s).bcEn = s.bcEn := rfl
@[simp] theorem note_bcRst (a : Action) (s : State) : (note a s).bcRst = s.bcRst := rfl
@[simp] theorem note_trace (a : Action) (s : State) : (note a s).trace = a :: s.trace := rfl
@[simp] theorem note_turns (a : Action) (s : State) : (note a s).turns = s.turns := rfl
@[simp] theorem note_draws (a : Action) (s : State) : (note a s).draws = s.draws := rfl

@[simp] theorem storePeriph_cfg (p : Periph) (s : State) : (storePeriph p s).cfg = s.cfg := rfl
@[simp] theorem storePeriph_busy (p : Periph) (s : State) : (storePeriph p s).busy = s.busy := rfl
@[simp] theorem storePeriph_fault (p : Periph) (s : State) : (storePeriph p s).fault = s.fault := rfl
@[simp] theorem storePeriph_fcode (p : Periph) (s : State) : (storePeriph p s).fcode = s.fcode := rfl
@[simp] theorem storePeriph_finfo (p : Periph) (s : State) : (storePeriph p s).finfo = s.finfo := rfl
@[simp] theorem storePeriph_lastTx (p : Periph) (s : State) : (storePeriph p s).lastTx = s.lastTx := rfl
@[simp] theorem storePeriph_ph (p : Periph) (s : State) : (storePeriph p s).ph = s.ph := rfl
@[simp] theorem storePeriph_fl (p : Periph) (s : State) : (storePeriph p s).fl = s.fl := rfl
@[simp] theorem storePeriph_tsrv (p : Periph) (s : State) : (storePeriph p s).tsrv = s.tsrv := rfl
@[simp] theorem storePeriph_mb (p : Periph) (s : State) : (storePeriph p s).mb = s.mb := rfl
@[simp] theorem storePeriph_pre (p : Periph) (s : State) : (storePeriph p s).pre = s.pre := rfl
@[simp] theorem storePeriph_mcrv (p : Periph) (s : State) : (storePeriph p s).mcrv = s.mcrv := rfl
@[simp] theorem storePeriph_cmd (p : Periph) (s : State) : (storePeriph p s).cmd = s.cmd := rfl
@[simp] theorem storePeriph_result (p : Periph) (s : State) : (storePeriph p s).result = s.result := rfl
@[simp] theorem storePeriph_periph (p : Periph) (s : State) : (storePeriph p s).periph = p := rfl
@[simp] theorem storePeriph_bcEn (p : Periph) (s : State) : (storePeriph p s).bcEn = s.bcEn := rfl
@[simp] theorem storePeriph_bcRst (p : Periph) (s : State) : (storePeriph p s).bcRst = s.bcRst := rfl
@[simp] theorem storePeriph_trace (p : Periph) (s : State) : (storePeriph p s).trace = s.trace := rfl
@[simp] theorem storePeriph_turns (p : Periph) (s : State) : (storePeriph p s).turns = s.turns := rfl
@[simp] theorem storePeriph_draws (p : Periph) (s : State) : (storePeriph p s).draws = s.draws := rfl

@[simp] theorem complete_cfg (r : Result) (s : State) : (complete r s).cfg = s.cfg := rfl
@[simp] theorem complete_busy (r : Result) (s : State) : (complete r s).busy = false := rfl
@[simp] theorem complete_fault (r : Result) (s : State) : (complete r s).fault = s.fault := rfl
@[simp] theorem complete_fcode (r : Result) (s : State) : (complete r s).fcode = s.fcode := rfl
@[simp] theorem complete_finfo (r : Result) (s : State) : (complete r s).finfo = s.finfo := rfl
@[simp] theorem complete_lastTx (r : Result) (s : State) : (complete r s).lastTx = s.lastTx := rfl
@[simp] theorem complete_ph (r : Result) (s : State) : (complete r s).ph = .idle := rfl
@[simp] theorem complete_fl (r : Result) (s : State) : (complete r s).fl = s.fl := rfl
@[simp] theorem complete_tsrv (r : Result) (s : State) : (complete r s).tsrv = s.tsrv := rfl
@[simp] theorem complete_mb (r : Result) (s : State) : (complete r s).mb = s.mb := rfl
@[simp] theorem complete_pre (r : Result) (s : State) : (complete r s).pre = s.pre := rfl
@[simp] theorem complete_mcrv (r : Result) (s : State) : (complete r s).mcrv = s.mcrv := rfl
@[simp] theorem complete_cmd (r : Result) (s : State) : (complete r s).cmd = s.cmd := rfl
@[simp] theorem complete_result (r : Result) (s : State) : (complete r s).result = some r := rfl
@[simp] theorem complete_periph (r : Result) (s : State) : (complete r s).periph = s.periph := rfl
@[simp] theorem complete_bcEn (r : Result) (s : State) : (complete r s).bcEn = s.bcEn := rfl
@[simp] theorem complete_bcRst (r : Result) (s : State) : (complete r s).bcRst = s.bcRst := rfl
@[simp] theorem complete_trace (r : Result) (s : State) : (complete r s).trace = s.trace := rfl
@[simp] theorem complete_turns (r : Result) (s : State) : (complete r s).turns = s.turns := rfl
@[simp] theorem complete_draws (r : Result) (s : State) : (complete r s).draws = s.draws := rfl

@[simp] theorem raise_cfg (x : FaultRaise) (s : State) : (raise x s).cfg = s.cfg := rfl
@[simp] theorem raise_busy (x : FaultRaise) (s : State) : (raise x s).busy = false := rfl
@[simp] theorem raise_fault (x : FaultRaise) (s : State) : (raise x s).fault = true := rfl
@[simp] theorem raise_fcode (x : FaultRaise) (s : State) : (raise x s).fcode = x.code := rfl
@[simp] theorem raise_finfo (x : FaultRaise) (s : State) : (raise x s).finfo = x.info := rfl
@[simp] theorem raise_lastTx (x : FaultRaise) (s : State) : (raise x s).lastTx = s.lastTx := rfl
@[simp] theorem raise_ph (x : FaultRaise) (s : State) : (raise x s).ph = .halt := rfl
@[simp] theorem raise_fl (x : FaultRaise) (s : State) : (raise x s).fl = s.fl := rfl
@[simp] theorem raise_tsrv (x : FaultRaise) (s : State) : (raise x s).tsrv = s.tsrv := rfl
@[simp] theorem raise_mb (x : FaultRaise) (s : State) : (raise x s).mb = s.mb := rfl
@[simp] theorem raise_pre (x : FaultRaise) (s : State) : (raise x s).pre = s.pre := rfl
@[simp] theorem raise_mcrv (x : FaultRaise) (s : State) : (raise x s).mcrv = s.mcrv := rfl
@[simp] theorem raise_cmd (x : FaultRaise) (s : State) : (raise x s).cmd = s.cmd := rfl
@[simp] theorem raise_result (x : FaultRaise) (s : State) : (raise x s).result = none := rfl
@[simp] theorem raise_periph (x : FaultRaise) (s : State) : (raise x s).periph = s.periph := rfl
@[simp] theorem raise_bcEn (x : FaultRaise) (s : State) : (raise x s).bcEn = s.bcEn := rfl
@[simp] theorem raise_bcRst (x : FaultRaise) (s : State) : (raise x s).bcRst = s.bcRst := rfl
@[simp] theorem raise_trace (x : FaultRaise) (s : State) : (raise x s).trace = s.trace := rfl
@[simp] theorem raise_turns (x : FaultRaise) (s : State) : (raise x s).turns = s.turns := rfl
@[simp] theorem raise_draws (x : FaultRaise) (s : State) : (raise x s).draws = s.draws := rfl

@[simp] theorem blockReset_cfg (l : Latches) (s : State) : (blockReset l s).cfg = false := rfl
@[simp] theorem blockReset_busy (l : Latches) (s : State) : (blockReset l s).busy = false := rfl
@[simp] theorem blockReset_fault (l : Latches) (s : State) : (blockReset l s).fault = false := rfl
@[simp] theorem blockReset_fcode (l : Latches) (s : State) : (blockReset l s).fcode = .none := rfl
@[simp] theorem blockReset_finfo (l : Latches) (s : State) : (blockReset l s).finfo = 0#32 := rfl
@[simp] theorem blockReset_lastTx (l : Latches) (s : State) : (blockReset l s).lastTx = .none := rfl
@[simp] theorem blockReset_ph (l : Latches) (s : State) : (blockReset l s).ph = .idle := rfl
@[simp] theorem blockReset_fl (l : Latches) (s : State) : (blockReset l s).fl = l.fl := rfl
@[simp] theorem blockReset_tsrv (l : Latches) (s : State) : (blockReset l s).tsrv = l.tsrv := rfl
@[simp] theorem blockReset_mb (l : Latches) (s : State) : (blockReset l s).mb = l.mb := rfl
@[simp] theorem blockReset_pre (l : Latches) (s : State) : (blockReset l s).pre = l.pre := rfl
@[simp] theorem blockReset_mcrv (l : Latches) (s : State) : (blockReset l s).mcrv = l.mcrv := rfl
@[simp] theorem blockReset_cmd (l : Latches) (s : State) : (blockReset l s).cmd = s.cmd := rfl
@[simp] theorem blockReset_result (l : Latches) (s : State) : (blockReset l s).result = none := rfl
@[simp] theorem blockReset_periph (l : Latches) (s : State) : (blockReset l s).periph = s.periph := rfl
@[simp] theorem blockReset_bcEn (l : Latches) (s : State) : (blockReset l s).bcEn = s.bcEn := rfl
@[simp] theorem blockReset_bcRst (l : Latches) (s : State) : (blockReset l s).bcRst = s.bcRst := rfl
@[simp] theorem blockReset_trace (l : Latches) (s : State) : (blockReset l s).trace = s.trace := rfl
@[simp] theorem blockReset_turns (l : Latches) (s : State) : (blockReset l s).turns = s.turns := rfl
@[simp] theorem blockReset_draws (l : Latches) (s : State) : (blockReset l s).draws = s.draws := rfl

@[simp] theorem busCtl_en_cfg (s : State) : (busCtl .en s).cfg = s.cfg := rfl
@[simp] theorem busCtl_en_busy (s : State) : (busCtl .en s).busy = s.busy := rfl
@[simp] theorem busCtl_en_fault (s : State) : (busCtl .en s).fault = s.fault := rfl
@[simp] theorem busCtl_en_fcode (s : State) : (busCtl .en s).fcode = s.fcode := rfl
@[simp] theorem busCtl_en_finfo (s : State) : (busCtl .en s).finfo = s.finfo := rfl
@[simp] theorem busCtl_en_lastTx (s : State) : (busCtl .en s).lastTx = s.lastTx := rfl
@[simp] theorem busCtl_en_ph (s : State) : (busCtl .en s).ph = s.ph := rfl
@[simp] theorem busCtl_en_fl (s : State) : (busCtl .en s).fl = s.fl := rfl
@[simp] theorem busCtl_en_tsrv (s : State) : (busCtl .en s).tsrv = s.tsrv := rfl
@[simp] theorem busCtl_en_mb (s : State) : (busCtl .en s).mb = s.mb := rfl
@[simp] theorem busCtl_en_pre (s : State) : (busCtl .en s).pre = s.pre := rfl
@[simp] theorem busCtl_en_mcrv (s : State) : (busCtl .en s).mcrv = s.mcrv := rfl
@[simp] theorem busCtl_en_cmd (s : State) : (busCtl .en s).cmd = s.cmd := rfl
@[simp] theorem busCtl_en_result (s : State) : (busCtl .en s).result = s.result := rfl
@[simp] theorem busCtl_en_periph (s : State) : (busCtl .en s).periph = s.periph := rfl
@[simp] theorem busCtl_en_bcEn (s : State) : (busCtl .en s).bcEn = true := rfl
@[simp] theorem busCtl_en_bcRst (s : State) : (busCtl .en s).bcRst = s.bcRst := rfl
@[simp] theorem busCtl_en_trace (s : State) : (busCtl .en s).trace = .busCtl .en :: s.trace := rfl
@[simp] theorem busCtl_en_turns (s : State) : (busCtl .en s).turns = s.turns := rfl
@[simp] theorem busCtl_en_draws (s : State) : (busCtl .en s).draws = s.draws := rfl

@[simp] theorem busCtl_rstAssert_cfg (s : State) : (busCtl .rstAssert s).cfg = s.cfg := rfl
@[simp] theorem busCtl_rstAssert_busy (s : State) : (busCtl .rstAssert s).busy = s.busy := rfl
@[simp] theorem busCtl_rstAssert_fault (s : State) : (busCtl .rstAssert s).fault = s.fault := rfl
@[simp] theorem busCtl_rstAssert_fcode (s : State) : (busCtl .rstAssert s).fcode = s.fcode := rfl
@[simp] theorem busCtl_rstAssert_finfo (s : State) : (busCtl .rstAssert s).finfo = s.finfo := rfl
@[simp] theorem busCtl_rstAssert_lastTx (s : State) : (busCtl .rstAssert s).lastTx = s.lastTx := rfl
@[simp] theorem busCtl_rstAssert_ph (s : State) : (busCtl .rstAssert s).ph = s.ph := rfl
@[simp] theorem busCtl_rstAssert_fl (s : State) : (busCtl .rstAssert s).fl = s.fl := rfl
@[simp] theorem busCtl_rstAssert_tsrv (s : State) : (busCtl .rstAssert s).tsrv = s.tsrv := rfl
@[simp] theorem busCtl_rstAssert_mb (s : State) : (busCtl .rstAssert s).mb = s.mb := rfl
@[simp] theorem busCtl_rstAssert_pre (s : State) : (busCtl .rstAssert s).pre = s.pre := rfl
@[simp] theorem busCtl_rstAssert_mcrv (s : State) : (busCtl .rstAssert s).mcrv = s.mcrv := rfl
@[simp] theorem busCtl_rstAssert_cmd (s : State) : (busCtl .rstAssert s).cmd = s.cmd := rfl
@[simp] theorem busCtl_rstAssert_result (s : State) : (busCtl .rstAssert s).result = s.result := rfl
@[simp] theorem busCtl_rstAssert_periph (s : State) : (busCtl .rstAssert s).periph = periphAfterReset s.draws := rfl
@[simp] theorem busCtl_rstAssert_bcEn (s : State) : (busCtl .rstAssert s).bcEn = s.bcEn := rfl
@[simp] theorem busCtl_rstAssert_bcRst (s : State) : (busCtl .rstAssert s).bcRst = true := rfl
@[simp] theorem busCtl_rstAssert_trace (s : State) : (busCtl .rstAssert s).trace = .busCtl .rstAssert :: s.trace := rfl
@[simp] theorem busCtl_rstAssert_turns (s : State) : (busCtl .rstAssert s).turns = s.turns := rfl
@[simp] theorem busCtl_rstAssert_draws (s : State) : (busCtl .rstAssert s).draws = s.draws + 12 := rfl

@[simp] theorem busCtl_rstDeassert_cfg (s : State) : (busCtl .rstDeassert s).cfg = s.cfg := rfl
@[simp] theorem busCtl_rstDeassert_busy (s : State) : (busCtl .rstDeassert s).busy = s.busy := rfl
@[simp] theorem busCtl_rstDeassert_fault (s : State) : (busCtl .rstDeassert s).fault = s.fault := rfl
@[simp] theorem busCtl_rstDeassert_fcode (s : State) : (busCtl .rstDeassert s).fcode = s.fcode := rfl
@[simp] theorem busCtl_rstDeassert_finfo (s : State) : (busCtl .rstDeassert s).finfo = s.finfo := rfl
@[simp] theorem busCtl_rstDeassert_lastTx (s : State) : (busCtl .rstDeassert s).lastTx = s.lastTx := rfl
@[simp] theorem busCtl_rstDeassert_ph (s : State) : (busCtl .rstDeassert s).ph = s.ph := rfl
@[simp] theorem busCtl_rstDeassert_fl (s : State) : (busCtl .rstDeassert s).fl = s.fl := rfl
@[simp] theorem busCtl_rstDeassert_tsrv (s : State) : (busCtl .rstDeassert s).tsrv = s.tsrv := rfl
@[simp] theorem busCtl_rstDeassert_mb (s : State) : (busCtl .rstDeassert s).mb = s.mb := rfl
@[simp] theorem busCtl_rstDeassert_pre (s : State) : (busCtl .rstDeassert s).pre = s.pre := rfl
@[simp] theorem busCtl_rstDeassert_mcrv (s : State) : (busCtl .rstDeassert s).mcrv = s.mcrv := rfl
@[simp] theorem busCtl_rstDeassert_cmd (s : State) : (busCtl .rstDeassert s).cmd = s.cmd := rfl
@[simp] theorem busCtl_rstDeassert_result (s : State) : (busCtl .rstDeassert s).result = s.result := rfl
@[simp] theorem busCtl_rstDeassert_periph (s : State) : (busCtl .rstDeassert s).periph = s.periph := rfl
@[simp] theorem busCtl_rstDeassert_bcEn (s : State) : (busCtl .rstDeassert s).bcEn = s.bcEn := rfl
@[simp] theorem busCtl_rstDeassert_bcRst (s : State) : (busCtl .rstDeassert s).bcRst = false := rfl
@[simp] theorem busCtl_rstDeassert_trace (s : State) : (busCtl .rstDeassert s).trace = .busCtl .rstDeassert :: s.trace := rfl
@[simp] theorem busCtl_rstDeassert_turns (s : State) : (busCtl .rstDeassert s).turns = s.turns := rfl
@[simp] theorem busCtl_rstDeassert_draws (s : State) : (busCtl .rstDeassert s).draws = s.draws := rfl

@[simp] theorem setBox_mcr (p : Periph) (m : MailboxIndex) (b : Mailbox) : (setBox p m b).mcr = p.mcr := by
  fin_cases m <;> rfl
@[simp] theorem setBox_msr (p : Periph) (m : MailboxIndex) (b : Mailbox) : (setBox p m b).msr = p.msr := by
  fin_cases m <;> rfl
@[simp] theorem setBox_tsr (p : Periph) (m : MailboxIndex) (b : Mailbox) : (setBox p m b).tsr = p.tsr := by
  fin_cases m <;> rfl
@[simp] theorem setBox_btr (p : Periph) (m : MailboxIndex) (b : Mailbox) : (setBox p m b).btr = p.btr := by
  fin_cases m <;> rfl

/-- A mailbox that was replaced reads as it was written. -/
@[simp] theorem getBox_setBox_same (p : Periph) (m : MailboxIndex) (b : Mailbox) : getBox (setBox p m b) m = b := by
  fin_cases m <;> rfl

/-- Replacing a mailbox leaves the others alone. -/
theorem getBox_setBox_ne (p : Periph) (m k : MailboxIndex) (b : Mailbox) (h : k ≠ m) :
    getBox (setBox p m b) k = getBox p k := by
  fin_cases m <;> fin_cases k <;> first | rfl | exact absurd rfl h

/-- A mailbox read after replacing one. -/
theorem getBox_setBox (p : Periph) (m k : MailboxIndex) (b : Mailbox) :
    getBox (setBox p m b) k = if k = m then b else getBox p k := by
  split
  · next h => subst h; exact getBox_setBox_same p k b
  · next h => exact getBox_setBox_ne p m k b h

end Sys2Proof.Laws
end

