-- ==== Sys2Proof/Laws/Ops.lean ====
section
/-! SUPPORT. For each shared operation, everything it can do, said once. -/

namespace Sys2Proof.Laws

open Sys2Proof.Machine

/-- Every register is found at its own address (R66). -/
@[simp] theorem regAt_regAddress (r : Reg) : regAt (regAddress r) = some r := by
  cases r with
  | mcr => decide
  | msr => decide
  | tsr => decide
  | btr => decide
  | ti m => revert m; decide
  | tdt m => revert m; decide
  | tdl m => revert m; decide
  | tdh m => revert m; decide

/-- A bus read on a ready bus (R68): the value of the register, noted in the trace. -/
theorem memRead_ready (r : Reg) (s : State) (k : Word → State → Answer) (h : busReady s = true) :
    memRead (regAddress r) s k = k (readReg s.periph r) (note (.read r (readReg s.periph r)) s) := by
  simp [memRead, h]

/-- If a bus read goes on to a next state, the bus was ready and the continuation ran on the register's value. -/
theorem memRead_next {r : Reg} {s t : State} {k : Word → State → Answer}
    (h : memRead (regAddress r) s k = .next t) :
    busReady s = true ∧ k (readReg s.periph r) (note (.read r (readReg s.periph r)) s) = .next t := by
  by_cases hb : busReady s = true
  · exact ⟨hb, by rwa [memRead_ready r s k hb] at h⟩
  · simp [memRead, hb] at h

/-- A bus write that stores `p` on a ready bus (R68). -/
theorem memWrite_ready (r : Reg) (v : Word) (s : State) (k : State → Answer) (p : Periph) (h : busReady s = true)
    (hp : writeReg s.periph r v = .ok p) :
    memWrite (regAddress r) v s k = k (note (.write r v) (storePeriph p s)) := by
  simp [memWrite, h, hp]

/-- If a bus write goes on to a next state, the bus was ready and the register took the write. -/
theorem memWrite_next {r : Reg} {v : Word} {s t : State} {k : State → Answer}
    (h : memWrite (regAddress r) v s k = .next t) :
    busReady s = true ∧ ∃ p, writeReg s.periph r v = .ok p ∧
      k (note (.write r v) (storePeriph p s)) = .next t := by
  by_cases hb : busReady s = true
  · refine ⟨hb, ?_⟩
    cases hw : writeReg s.periph r v with
    | ok p => exact ⟨p, rfl, by rwa [memWrite_ready r v s k p hb hw] at h⟩
    | error e => simp [memWrite, hb, hw] at h
  · simp [memWrite, hb] at h

/-- A mailbox write (R56, U4): it stores exactly when the mailbox is Empty. -/
theorem writeBox_ok {p q : Periph} {m : MailboxIndex} {b : Mailbox} :
    writeBox p m b = .ok q ↔ (getBox p m).mbs = .empty ∧ q = setBox p m b := by
  unfold writeBox
  split
  · next h => simp [h, eq_comm]
  · next h => simp [h]

/-- A write of a register of an Empty mailbox on a ready bus (R56). -/
theorem memWrite_box {r : Reg} {v : Word} {s : State} {m : MailboxIndex} {b : Mailbox} (k : State → Answer)
    (h : busReady s = true) (hr : writeReg s.periph r v = writeBox s.periph m b)
    (he : (getBox s.periph m).mbs = .empty) :
    memWrite (regAddress r) v s k = k (note (.write r v) (storePeriph (setBox s.periph m b) s)) :=
  memWrite_ready r v s k _ h (hr.trans (writeBox_ok.2 ⟨he, rfl⟩))

/-- The acceptance step of a block that can accept (R93). -/
theorem accept_ready (body : State → State) (s : State) (h : canAccept s = true) :
    accept body s = .next (body { s with busy := true, cmd := none, result := none }) := by
  simp [accept, h]

/-- A block that cannot accept leaves the command waiting (R93). -/
theorem accept_waits (body : State → State) (s : State) (h : canAccept s = false) : accept body s = .next s := by
  simp [accept, h]

/-- What an acceptance step can do (R93). -/
theorem accept_next {body : State → State} {s t : State} (h : accept body s = .next t) :
    (canAccept s = true ∧ t = body { s with busy := true, cmd := none, result := none }) ∨
      (canAccept s = false ∧ t = s) := by
  by_cases hc : canAccept s = true
  · rw [accept_ready body s hc] at h
    exact .inl ⟨hc, by simpa using h.symm⟩
  · rw [Bool.not_eq_true] at hc
    rw [accept_waits body s hc] at h
    exact .inr ⟨hc, by simpa using h.symm⟩

/-- An acceptance step always answers a next state: no command is refused and none stops the model. -/
theorem accept_answers (body : State → State) (s : State) : ∃ t, accept body s = .next t := by
  cases hc : canAccept s with
  | true => exact ⟨_, accept_ready body s hc⟩
  | false => exact ⟨s, accept_waits body s hc⟩

/-- The condition of acceptance, field by field (R93). -/
theorem canAccept_iff (s : State) : canAccept s = true ↔ s.ph = .idle ∧ s.busy = false ∧ s.fault = false := by
  simp [canAccept, and_assoc]

/-- The bus is ready when its clock is enabled and reset released (R57). -/
theorem busReady_iff (s : State) : busReady s = true ↔ s.bcEn = true ∧ s.bcRst = false := by
  simp [busReady]

/-- The frame-operand check passes a well-formed frame (R137). -/
theorem checkFrame_of_wf (f : RawFrame) (h : f.wf = true) : checkFrame f = .ok ⟨f, h⟩ := by simp [checkFrame, h]

/-- The frame-operand check refuses an ill-formed frame with both sub-causes (R137). -/
theorem checkFrame_of_not_wf (f : RawFrame) (h : f.wf = false) :
    checkFrame f = .error (invalidFrame (badLen f.len.toNat) (badId f.ext f.id)) := by simp [checkFrame, h]

/-- A pure command that has a result completes with it (R10). -/
@[simp] theorem finish_ok (r : Result) (s : State) : finish (.ok r) s = complete r s := rfl

/-- A pure command whose operands are refused raises their fault (R10). -/
@[simp] theorem finish_error (x : FaultRaise) (s : State) : finish (.error x) s = raise x s := rfl

end Sys2Proof.Laws
end

