-- ==== Sys2Proof/Laws/PerInstr.lean ====
section
/-! SUPPORT. Statements made per command: its opcode-table row. -/

namespace Sys2Proof.Laws.OpcodeRow

/-- The record a command is encoded in carries its opcode in bits 3:0 (mask 0xF of the table), the opcode is none of
the reserved ones (R110), and nothing stands above the bits of its format (R91). -/
def Statement (i : Instr) : Prop :=
  recordOp (encode i) = opcode i ∧ 1 ≤ (opcode i).toNat ∧ (opcode i).toNat ≤ 9 ∧
    (encode i).toNat < 2 ^ formatWidth i

/-- The opcodes are 1 to 9 (R91). -/
theorem opcode_range (i : Instr) : 1 ≤ (opcode i).toNat ∧ (opcode i).toNat ≤ 9 := by
  cases i <;> simp [opcode]

/-- The opcode field of a CMD-F record. -/
theorem recordOp_packF (op : BitVec 4) (f : RawFrame) : recordOp (packF op f) = op := by
  rw [recordOp, packF, BitVec.extractLsb'_setWidth_of_le (by decide)]
  rw [BitVec.extractLsb'_append_eq_of_add_le (by decide)]
  exact BitVec.extractLsb'_eq_self

/-- The opcode field of a CMD-T record. -/
theorem recordOp_packT (op : BitVec 4) (clock baud : Word) : recordOp (packT op clock baud) = op := by
  rw [recordOp, packT, BitVec.extractLsb'_setWidth_of_le (by decide)]
  rw [BitVec.extractLsb'_append_eq_of_add_le (by decide)]
  exact BitVec.extractLsb'_eq_self

/-- A CMD-F record has 106 bits. -/
theorem packF_lt (op : BitVec 4) (f : RawFrame) : (packF op f).toNat < 2 ^ 106 := by
  rw [packF, BitVec.toNat_setWidth]
  exact Nat.lt_of_le_of_lt (Nat.mod_le _ _) (BitVec.isLt _)

/-- A CMD-T record has 68 bits. -/
theorem packT_lt (op : BitVec 4) (clock baud : Word) : (packT op clock baud).toNat < 2 ^ 68 := by
  rw [packT, BitVec.toNat_setWidth]
  exact Nat.lt_of_le_of_lt (Nat.mod_le _ _) (BitVec.isLt _)

/-- FRAME_NEW's row. -/
theorem frameNew (id n : Word) (data : Payload) (remote extended : Bool) :
    Statement (.frameNew id n data remote extended) := by
  refine ⟨?_, (opcode_range _).1, (opcode_range _).2, BitVec.isLt _⟩
  rw [recordOp, encode, packN, BitVec.extractLsb'_append_eq_of_add_le (by decide)]
  exact BitVec.extractLsb'_eq_self

/-- FRAME_ID's row. -/
theorem frameId (frame : RawFrame) : Statement (.frameId frame) :=
  ⟨recordOp_packF _ _, (opcode_range _).1, (opcode_range _).2, packF_lt _ _⟩

/-- FRAME_IS_EXTENDED's row. -/
theorem frameIsExtended (frame : RawFrame) : Statement (.frameIsExtended frame) :=
  ⟨recordOp_packF _ _, (opcode_range _).1, (opcode_range _).2, packF_lt _ _⟩

/-- FRAME_IS_RTR's row. -/
theorem frameIsRtr (frame : RawFrame) : Statement (.frameIsRtr frame) :=
  ⟨recordOp_packF _ _, (opcode_range _).1, (opcode_range _).2, packF_lt _ _⟩

/-- FRAME_DATA's row. -/
theorem frameData (frame : RawFrame) : Statement (.frameData frame) :=
  ⟨recordOp_packF _ _, (opcode_range _).1, (opcode_range _).2, packF_lt _ _⟩

/-- SERIALIZE's row. -/
theorem serialize (frame : RawFrame) : Statement (.serialize frame) :=
  ⟨recordOp_packF _ _, (opcode_range _).1, (opcode_range _).2, packF_lt _ _⟩

/-- BTR_ENCODE's row. -/
theorem btrEncode (clock baud : Word) : Statement (.btrEncode clock baud) :=
  ⟨recordOp_packT _ _ _, (opcode_range _).1, (opcode_range _).2, packT_lt _ _ _⟩

/-- CONFIGURE's row. -/
theorem configure (clock baud : Word) : Statement (.configure clock baud) :=
  ⟨recordOp_packT _ _ _, (opcode_range _).1, (opcode_range _).2, packT_lt _ _ _⟩

/-- TRANSMIT's row. -/
theorem transmit (frame : RawFrame) : Statement (.transmit frame) :=
  ⟨recordOp_packF _ _, (opcode_range _).1, (opcode_range _).2, packF_lt _ _⟩

end Sys2Proof.Laws.OpcodeRow
end

