-- ==== Sys2Proof/Laws/Phases.lean ====
section
/-! SUPPORT. What each step of SEQ can do: if it answers a next state, that state is this one. -/

namespace Sys2Proof.Laws

open Sys2Proof.Machine

/-- Reading MCR into the latch (R173). -/
theorem latchMcr_next {p : Phase} {s t : State} (h : latchMcr p s = .next t) :
    busReady s = true ∧ t = { note (.read .mcr s.periph.mcr) s with mcrv := s.periph.mcr, ph := p } := by
  obtain ⟨hb, hk⟩ := memRead_next h
  injection hk with hk
  exact ⟨hb, hk.symm⟩

/-- Writing MCR (R173). -/
theorem storeMcr_next {v : Word} {p : Phase} {s t : State} (h : storeMcr v p s = .next t) :
    busReady s = true ∧ t = { note (.write .mcr v) (storePeriph { s.periph with mcr := v } s) with ph := p } := by
  obtain ⟨hb, q, hq, hk⟩ := memWrite_next h
  injection hq with hq
  subst hq
  injection hk with hk
  exact ⟨hb, hk.symm⟩

/-- POLL_BOUND is `none`: a poll's iteration is one read of MSR (R7, R175). -/
theorem pollMsr_eq (k : Word → State → State) (s : State) :
    pollMsr k s = memRead (regAddress .msr) s fun v t => .next (k v t) := rfl

/-- Polling MSR (R175): what a continuation does with the value read. -/
theorem pollMsr_next {k : Word → State → State} {s t : State}
    (h : pollMsr k s = .next t) :
    busReady s = true ∧ t = k s.periph.msr (note (.read .msr s.periph.msr) s) := by
  rw [pollMsr_eq] at h
  obtain ⟨hb, hk⟩ := memRead_next h
  injection hk with hk
  exact ⟨hb, hk.symm⟩

/-- The wake poll (R175). -/
theorem stepCfWakePoll_next {s t : State} (h : stepCfWakePoll s = .next t) :
    busReady s = true ∧ t = { note (.read .msr s.periph.msr) s with
      ph := if wakeDone s.periph.msr then .cfInitRd else .cfWakePoll } :=
  pollMsr_next h

/-- The initialization-entry poll (R175). -/
theorem stepCfInitPoll_next {s t : State} (h : stepCfInitPoll s = .next t) :
    busReady s = true ∧ t = { note (.read .msr s.periph.msr) s with
      ph := if initEntered s.periph.msr then .cfBtrWr else .cfInitPoll } := pollMsr_next h

/-- The initialization-exit poll and the completion (R175, R176). -/
theorem stepCfExitPoll_next {s t : State} (h : stepCfExitPoll s = .next t) :
    busReady s = true ∧ t = if initLeft s.periph.msr then
        complete .unit { note (.read .msr s.periph.msr) s with cfg := true }
      else { note (.read .msr s.periph.msr) s with ph := .cfExitPoll } :=
  pollMsr_next (k := fun v u => if initLeft v then complete .unit { u with cfg := true }
    else { u with ph := .cfExitPoll }) h

/-- The timing write (R174, R55). -/
theorem stepCfBtrWr_next {s t : State} (h : stepCfBtrWr s = .next t) :
    busReady s = true ∧ t = { note (.write .btr (btrWord s.pre)) (storePeriph
      (if fieldBit layout.inak s.periph.msr then { s.periph with btr := btrWord s.pre } else s.periph) s) with
      ph := .cfExitRd } := by
  obtain ⟨hb, q, hq, hk⟩ := memWrite_next h
  injection hq with hq
  subst hq
  injection hk with hk
  exact ⟨hb, hk.symm⟩

/-- The status read of TRANSMIT (R192 to R196). -/
theorem stepTxTsrRd_next {s t : State} (h : stepTxTsrRd s = .next t) :
    busReady s = true ∧ t = choose (tsrValue s.periph) (note (.read .tsr (tsrValue s.periph)) s) := by
  obtain ⟨hb, hk⟩ := memRead_next h
  injection hk with hk
  exact ⟨hb, hk.symm⟩

/-- A write of a mailbox register that answers a next state (R56). -/
theorem writeMailbox_next {r : Reg} {m : MailboxIndex} {b : Mailbox} {v : Word} {k : State → State} {s t : State}
    (hr : writeReg s.periph r v = writeBox s.periph m b)
    (h : memWrite (regAddress r) v s (fun u => .next (k u)) = .next t) :
    busReady s = true ∧ (getBox s.periph m).mbs = .empty ∧
      t = k (note (.write r v) (storePeriph (setBox s.periph m b) s)) := by
  obtain ⟨hb, q, hq, hk⟩ := memWrite_next h
  rw [hr, writeBox_ok] at hq
  obtain ⟨he, rfl⟩ := hq
  injection hk with hk
  exact ⟨hb, he, hk.symm⟩

/-- Write 1 of 5 (R197). -/
theorem stepTxDlcWr_next {s t : State} (h : stepTxDlcWr s = .next t) :
    busReady s = true ∧ (getBox s.periph s.mb).mbs = .empty ∧
      t = { note (.write (.tdt s.mb) (tdtWord s.fl)) (storePeriph
        (setBox s.periph s.mb { getBox s.periph s.mb with tdt := tdtWord s.fl }) s) with ph := .txIdWr } :=
  writeMailbox_next rfl h

/-- Write 2 of 5 (R198). -/
theorem stepTxIdWr_next {s t : State} (h : stepTxIdWr s = .next t) :
    busReady s = true ∧ (getBox s.periph s.mb).mbs = .empty ∧
      t = { note (.write (.ti s.mb) (idWord s.fl)) (storePeriph
        (setBox s.periph s.mb { getBox s.periph s.mb with
          ti := idWord s.fl, mbs := if fieldBit layout.txrq (idWord s.fl) then .pending else .empty }) s) with
        ph := .txDlWr } :=
  writeMailbox_next rfl h

/-- Write 3 of 5 (R199). -/
theorem stepTxDlWr_next {s t : State} (h : stepTxDlWr s = .next t) :
    busReady s = true ∧ (getBox s.periph s.mb).mbs = .empty ∧
      t = { note (.write (.tdl s.mb) (tdlWord s.fl)) (storePeriph
        (setBox s.periph s.mb { getBox s.periph s.mb with tdl := tdlWord s.fl }) s) with ph := .txDhWr } :=
  writeMailbox_next rfl h

/-- Write 4 of 5 (R200). -/
theorem stepTxDhWr_next {s t : State} (h : stepTxDhWr s = .next t) :
    busReady s = true ∧ (getBox s.periph s.mb).mbs = .empty ∧
      t = { note (.write (.tdh s.mb) (tdhWord s.fl)) (storePeriph
        (setBox s.periph s.mb { getBox s.periph s.mb with tdh := tdhWord s.fl }) s) with ph := .txRqWr } :=
  writeMailbox_next rfl h

/-- Write 5 of 5 and the completion (R201, R202). -/
theorem stepTxRqWr_next {s t : State} (h : stepTxRqWr s = .next t) :
    busReady s = true ∧ (getBox s.periph s.mb).mbs = .empty ∧
      t = complete (.outcome (.queued s.mb)) { note (.write (.ti s.mb) (requestWord s.fl)) (storePeriph
        (setBox s.periph s.mb { getBox s.periph s.mb with
          ti := requestWord s.fl, mbs := if fieldBit layout.txrq (requestWord s.fl) then .pending else .empty }) s) with
        lastTx := .queued s.mb } :=
  writeMailbox_next (k := fun u => complete (.outcome (.queued u.mb)) { u with lastTx := .queued u.mb }) rfl h

end Sys2Proof.Laws
end

