-- ==== Sys2Proof/Laws/Words.lean ====
section
/-! SUPPORT. What the register words do to the bits the rules name (R101 to R108), and what replacing one register
leaves alone. -/

namespace Sys2Proof.Laws

open Sys2Proof.Machine

/-- The wake word clears SLEEP (R106). -/
theorem sleep_wakeWord (v : Word) : fieldBit layout.sleep (wakeWord v) = false :=
  fieldBit_fieldClear_same _ _ (by decide) (by decide)

/-- The wake word leaves INRQ (R106). -/
theorem inrq_wakeWord (v : Word) : fieldBit layout.inrq (wakeWord v) = fieldBit layout.inrq v :=
  fieldBit_fieldClear_other _ _ _ (by decide)

/-- The initialization word leaves SLEEP (R106). -/
theorem sleep_initWord (v : Word) : fieldBit layout.sleep (initWord v) = fieldBit layout.sleep v :=
  fieldBit_fieldSet_other _ _ _ (by decide)

/-- The initialization word sets INRQ (R106). -/
theorem inrq_initWord (v : Word) : fieldBit layout.inrq (initWord v) = true :=
  fieldBit_fieldSet_same _ _ (by decide) (by decide)

/-- The exit word leaves SLEEP (R106). -/
theorem sleep_exitWord (v : Word) : fieldBit layout.sleep (exitWord v) = fieldBit layout.sleep v :=
  fieldBit_fieldClear_other _ _ _ (by decide)

/-- The exit word clears INRQ (R106). -/
theorem inrq_exitWord (v : Word) : fieldBit layout.inrq (exitWord v) = false :=
  fieldBit_fieldClear_same _ _ (by decide) (by decide)

/-- Clearing a field keeps bits that are 0 at 0. -/
theorem fieldClear_and_zero (f : Field) (v m : Word) (h : v &&& m = 0#32) : fieldClear f v &&& m = 0#32 := by
  rw [fieldClear, BitVec.and_assoc, BitVec.and_comm (~~~ _), ← BitVec.and_assoc, h]
  simp

/-- Setting a field keeps bits outside it that are 0 at 0. -/
theorem fieldSet_and_zero (f : Field) (v m : Word) (hf : fieldMask f &&& m = 0#32) (h : v &&& m = 0#32) :
    fieldSet f v &&& m = 0#32 := by
  apply BitVec.eq_of_getLsbD_eq
  intro i _
  have a := congrArg (·.getLsbD i) h
  have b := congrArg (·.getLsbD i) hf
  simp only [BitVec.getLsbD_and, BitVec.getLsbD_zero] at a b ⊢
  rw [getLsbD_fieldSet]
  revert a b
  cases v.getLsbD i <;> cases (fieldMask f).getLsbD i <;> cases m.getLsbD i <;> simp

/-- The identifier word never requests a transmission (R101). -/
theorem txrq_idWord (f : RawFrame) : fieldBit layout.txrq (idWord f) = false := by
  unfold idWord fieldBit
  split <;> simp only [BitVec.getLsbD_or, getLsbD_fieldPut] <;> simp [layout]

/-- The request word does (R103). -/
theorem txrq_requestWord (f : RawFrame) : fieldBit layout.txrq (requestWord f) = true :=
  fieldBit_fieldSet_same _ _ (by decide) (by decide)

/-- Each mailbox contributes its own empty flag to TSR and no other (R50). -/
theorem getLsbD_emptyWord (p : Periph) (a b : MailboxIndex) :
    (emptyWord p a).getLsbD (26 + b.val) = (decide (a = b) && decide ((getBox p a).mbs = .empty)) := by
  rw [emptyWord, getLsbD_fieldPut]
  fin_cases a <;> fin_cases b <;> simp [fieldShift, layout, flagWord] <;> split <;> simp_all

/-- FRAME_NEW's bytes in the slice's number (R131). -/
@[simp] theorem newRaw_data (id n : Word) (data : Payload) (remote extended : Bool) :
    (newRaw id n data remote extended).data = payloadPadded n.toNat data := by rw [newRaw, operand_nw]

/-- FRAME_NEW on operands that pass both tests (R131). -/
theorem newFrame_ok {id n : Word} {extended : Bool} (data : Payload) (remote : Bool)
    (h : (badId extended id || badLen n.toNat) = false) :
    ∃ f : Frame, newFrame id n data remote extended = .ok f ∧ f.raw = newRaw id n data remote extended := by
  rw [← operand_nw n] at h
  exact ⟨⟨newRaw id n data remote extended, newRaw_wf h⟩, by rw [newFrame, dif_pos h], rfl⟩

/-- FRAME_NEW on operands that fail a test (R131). -/
theorem newFrame_error {id n : Word} {extended : Bool} (data : Payload) (remote : Bool)
    (h : (badId extended id || badLen n.toNat) = true) :
    newFrame id n data remote extended = .error (invalidFrame (badLen n.toNat) (badId extended id)) := by
  rw [← operand_nw n] at h
  rw [newFrame, dif_neg (by simp only [h, Bool.true_eq_false, not_false_eq_true]), operand_nw]

/-- The quotient in the operands' numbers (R160, R161). -/
theorem quotient_eq (clock baud : Word) : quotient clock baud = clock.toNat / (baud.toNat * 16) := by
  rw [quotient, operand_fw, operand_bw]
  rfl

/-- The prescaler in the operands' numbers (R161). -/
theorem prescaler_eq (clock baud : Word) :
    prescaler clock baud =
      if baud = 0#32 then .error ⟨.baudRateZero, 0#32⟩
      else if clock.toNat / (baud.toNat * 16) = 0 then .error ⟨.prescalerZero, 0#32⟩
      else if 512 ≤ clock.toNat / (baud.toNat * 16) then
        .error ⟨.prescalerOverflow, BitVec.ofNat 32 (clock.toNat / (baud.toNat * 16))⟩
      else .ok (BitVec.ofNat 32 (clock.toNat / (baud.toNat * 16))) := by
  have h512 : params.prescBound = 512 := rfl
  rw [prescaler, quotient_eq, h512]
  simp only [operand_bw_eq_zero]

/-- The prescaler is in 1 to 511 (R161). -/
theorem prescaler_range {clock baud p : Word} (h : prescaler clock baud = .ok p) :
    1 ≤ p.toNat ∧ p.toNat < params.prescBound := by
  unfold prescaler at h
  split at h
  · cases h
  · split at h
    · cases h
    · split at h
      · cases h
      · injection h with h
        subst h
        have : params.prescBound = 512 := rfl
        simp [this] at *
        omega

/-- Writing MCR leaves the mailboxes alone. -/
@[simp] theorem getBox_mcr (p : Periph) (v : Word) (m : MailboxIndex) : getBox { p with mcr := v } m = getBox p m := by
  fin_cases m <;> rfl

/-- Changing MSR leaves the mailboxes alone. -/
@[simp] theorem getBox_msr (p : Periph) (v : Word) (m : MailboxIndex) : getBox { p with msr := v } m = getBox p m := by
  fin_cases m <;> rfl

/-- Changing TSR leaves the mailboxes alone. -/
@[simp] theorem getBox_tsr (p : Periph) (v : Word) (m : MailboxIndex) : getBox { p with tsr := v } m = getBox p m := by
  fin_cases m <;> rfl

/-- Writing BTR leaves the mailboxes alone. -/
@[simp] theorem getBox_btr (p : Periph) (v : Word) (m : MailboxIndex) : getBox { p with btr := v } m = getBox p m := by
  fin_cases m <;> rfl

/-- After the reset pulse a mailbox is as `mailboxAfterReset` says (R48). -/
@[simp] theorem getBox_periphAfterReset (n : Nat) (m : MailboxIndex) :
    getBox (periphAfterReset n) m = mailboxAfterReset (n + 4 * m.val) := by fin_cases m <;> rfl

/-- After the reset pulse no mailbox requests a transmission (R48). -/
theorem txrq_mailboxAfterReset (n : Nat) : fieldBit layout.txrq (mailboxAfterReset n).ti = false :=
  fieldBit_fieldClear_same _ _ (by decide) (by decide)

/-- A time stamp changes TIME of its mailbox and nothing else (R45). -/
theorem getBox_stamp (p : Periph) (k m : MailboxIndex) (time : Word) :
    getBox (periphMove (.stamp k time) p) m =
      if m = k then
        { getBox p k with tdt := fieldClear layout.time (getBox p k).tdt ||| fieldPut layout.time time }
      else getBox p m := getBox_setBox p k m _

/-- A time stamp leaves a mailbox's identifier word and state alone (R45). -/
theorem stamp_ti_mbs (p : Periph) (k m : MailboxIndex) (time : Word) :
    (getBox (periphMove (.stamp k time) p) m).ti = (getBox p m).ti ∧
      (getBox (periphMove (.stamp k time) p) m).mbs = (getBox p m).mbs := by
  rw [getBox_stamp]
  split
  · next h => subst h; exact ⟨rfl, rfl⟩
  · exact ⟨rfl, rfl⟩

/-- A time stamp leaves the four registers outside the mailboxes alone (R45). -/
theorem stamp_registers (p : Periph) (k : MailboxIndex) (time : Word) :
    (periphMove (.stamp k time) p).mcr = p.mcr ∧ (periphMove (.stamp k time) p).msr = p.msr ∧
      (periphMove (.stamp k time) p).tsr = p.tsr ∧ (periphMove (.stamp k time) p).btr = p.btr := by
  simp [periphMove]

/-- A turn of PERIPH either makes its move on the peripheral or changes nothing (R12, R73). -/
theorem periphTurn_cases (m : PeriphMove) (s : State) :
    periphTurn m s = storePeriph (periphMove m s.periph) s ∨ periphTurn m s = s := by
  unfold periphTurn
  split
  · exact .inl rfl
  · exact .inr rfl

/-- A turn of PERIPH changes nothing but the peripheral (R56). -/
theorem periphTurn_frame (m : PeriphMove) (s : State) :
    periphTurn m s = storePeriph (periphTurn m s).periph s := by
  rcases periphTurn_cases m s with e | e <;> rw [e] <;> rfl

/-- Where a move of PERIPH is possible, its turn is that move (R12). -/
theorem periphTurn_enabled {m : PeriphMove} {s : State} (h : periphEnabled m s.ph = true) :
    periphTurn m s = storePeriph (periphMove m s.periph) s := if_pos h

/-- Outside TRANSMIT's window every move of PERIPH is possible (R73). -/
theorem periphEnabled_outside (m : PeriphMove) {p : Phase} (h : writesMailbox p = false) :
    periphEnabled m p = true := by
  cases m <;> simp [periphEnabled, h]

/-- `Complete(m)` leaves MCR alone (D24). -/
theorem completeBox_mcr (m : MailboxIndex) (o : BitVec 4) (a b c d : Word) (p : Periph) :
    (completeBox m o a b c d p).mcr = p.mcr := by
  unfold completeBox
  split <;> simp

/-- `Complete(m)` leaves MSR alone (R52). -/
theorem completeBox_msr (m : MailboxIndex) (o : BitVec 4) (a b c d : Word) (p : Periph) :
    (completeBox m o a b c d p).msr = p.msr := by
  unfold completeBox
  split <;> simp

end Sys2Proof.Laws
end

