-- ==== Sys2Proof/Tests/Slice0.lean ====
section
/-! SUPPORT. The model's own tests: records written out from R91, ill-formed commands, one-step vectors of
spec/95_test_vectors.md, and for every obligation with hypotheses a state and operands that meet them. -/

namespace Sys2Proof.Tests

open Sys2Proof.Machine Sys2Proof.Safety

/-! ### Helpers -/

/-- Payload lanes from a list, 0 beyond its end. -/
def lanes (l : List Byte) : Payload := payloadOf fun i => l.getD i 0#8

/-- The frame of V-F1: standard 0x123, four bytes. -/
def frameF1 : RawFrame := ⟨0x123#32, false, false, 4#4, lanes [0xDE#8, 0xAD#8, 0xBE#8, 0xEF#8]⟩

/-- The frame of V-F2: extended 0x12345678, eight bytes. -/
def frameF2 : RawFrame :=
  ⟨0x12345678#32, true, false, 8#4, lanes [1#8, 2#8, 3#8, 4#8, 5#8, 6#8, 7#8, 8#8]⟩

/-- The frame of V-F6: the largest extended identifier, remote, one byte. -/
def frameF6 : RawFrame := ⟨0x1FFFFFFE#32, true, true, 1#4, lanes [0xAA#8]⟩

/-- The largest standard identifier (V-F3), remote, empty. -/
def frameF3 : RawFrame := ⟨0x7FE#32, false, true, 0#4, lanes []⟩

/-- The raw record of V-A6: a standard identifier on its bound. -/
def badIdFrame : RawFrame := ⟨0x7FF#32, false, false, 0#4, lanes []⟩

/-- The raw record of V-A7: nine bytes. -/
def badLenFrame : RawFrame := ⟨0x1#32, false, false, 9#4, lanes []⟩

/-- The raw record of V-A8: bytes beyond the length that are not PAD. -/
def padFrame : RawFrame :=
  ⟨0x5#32, false, false, 2#4, lanes [1#8, 2#8, 0xEE#8, 0xEE#8, 0xEE#8, 0xEE#8, 0xEE#8, 0xEE#8]⟩

/-- A mailbox in a given state with TXRQ as that state has it. -/
def box (b : MailboxState) : Mailbox :=
  match b with
  | .empty => ⟨0#32, 0#32, 0#32, 0#32, .empty⟩
  | .pending => ⟨1#32, 0#32, 0#32, 0#32, .pending⟩

/-- The peripheral after V-C1, with mailboxes in given states. -/
def runningPeriph (a b c : MailboxState) : Periph :=
  ⟨0x00010000#32, 0x00000C00#32, 0#32, 0x001C0000#32, box a, box b, box c⟩

/-- The block after V-C1, with mailboxes in given states. -/
def configured (a b c : MailboxState) : State :=
  { State.reset with cfg := true, bcEn := true, periph := runningPeriph a b c }

/-- The block in a phase of CONFIGURE after its reset pulse, with MCR and MSR as given. -/
def configuring (p : Phase) (mcr msr : Word) : State :=
  { State.reset with
    busy := true, ph := p, pre := 511#32, mcrv := mcr, bcEn := true
    periph := { State.reset.periph with mcr := mcr, msr := msr } }

/-- The block in a phase of TRANSMIT with mailbox 1 selected. -/
def sending (p : Phase) : State :=
  { configured .pending .empty .empty with busy := true, ph := p, fl := frameF2, mb := 1 }

/-- A halted block. -/
def halted : State := { State.reset with fault := true, fcode := .illegalCommand, finfo := 0xA#32, ph := .halt }

/-- What a test looks at: flags, codes, result and trace of the state an answer carries. -/
def ends (o : Answer) (fault : Bool) (code : BitVec 4) (info : Word) (r : Option Result) (tr : List Action) : Bool :=
  match o with
  | .next t =>
    decide (t.fault = fault) && decide (faultNumber t.fcode = code) && decide (t.finfo = info) &&
      decide (t.result = r) && decide (t.trace = tr)
  | _ => false

/-- An answer is a command that completed with result `r` and no external action. -/
def gives (o : Answer) (r : Result) : Bool := ends o false 0#4 0#32 (some r) []

/-- An answer is a fault at acceptance with no external action (R229). -/
def refuses (o : Answer) (code : BitVec 4) (info : Word) : Bool := ends o true code info none []

/-! ### Records written out from R91: op in bits 3:0, then the format's fields (log 1) -/

/-- CMD-N: extended 1, remote 1, lanes EF BE AD DE 04 03 02 01 from data[7] down, n = 8, id = 0x12345678, op 0x1. -/
theorem test_decode_frame_new :
    decode (1#1 ++ 1#1 ++ 0xEFBEADDE04030201#64 ++ 0x00000008#32 ++ 0x12345678#32 ++ 0x1#4) =
      .ok (.frameNew 0x12345678#32 8#32 (lanes [1#8, 2#8, 3#8, 4#8, 0xDE#8, 0xAD#8, 0xBE#8, 0xEF#8]) true true) := by
  decide

/-- CMD-F, 106 bits: lanes, len, rtr, ext, id, op 0x2. The 28 bits above are not in the format. -/
theorem test_decode_frame_id :
    decode (0#28 ++ 0x00000000EFBEADDE#64 ++ 0x4#4 ++ 0#1 ++ 0#1 ++ 0x00000123#32 ++ 0x2#4) =
      .ok (.frameId frameF1) := by decide

/-- op 0x3, rtr and ext set. -/
theorem test_decode_frame_is_extended :
    decode (0#28 ++ 0x00000000000000AA#64 ++ 0x1#4 ++ 1#1 ++ 1#1 ++ 0x1FFFFFFE#32 ++ 0x3#4) =
      .ok (.frameIsExtended frameF6) := by decide

/-- op 0x4, rtr set and ext clear. -/
theorem test_decode_frame_is_rtr :
    decode (0#28 ++ 0x0000000000000000#64 ++ 0x0#4 ++ 1#1 ++ 0#1 ++ 0x000007FE#32 ++ 0x4#4) =
      .ok (.frameIsRtr frameF3) := by decide

/-- op 0x5, ext set and rtr clear; the bits above the format are not looked at. -/
theorem test_decode_frame_data :
    decode (0xFFFFFFF#28 ++ 0x0807060504030201#64 ++ 0x8#4 ++ 0#1 ++ 1#1 ++ 0x12345678#32 ++ 0x5#4) =
      .ok (.frameData frameF2) := by decide

/-- op 0x6. -/
theorem test_decode_serialize : decode 0x3BEFAB7790000001236#134 = .ok (.serialize frameF1) := by decide

/-- CMD-T, 68 bits: B = 500000, F = 8000000, op 0x7 (spec/95 P3). -/
theorem test_decode_btr_encode :
    decode (0#66 ++ 0x0007A120#32 ++ 0x007A1200#32 ++ 0x7#4) = .ok (.btrEncode 8000000#32 500000#32) := by decide

/-- CMD-T, op 0x8 (spec/95 P1). -/
theorem test_decode_configure :
    decode (0#66 ++ 0x0007A120#32 ++ 0x007A1200#32 ++ 0x8#4) = .ok (.configure 8000000#32 500000#32) := by decide

/-- op 0x9 (spec/95 P1). -/
theorem test_decode_transmit :
    decode (0#28 ++ 0x00000000EFBEADDE#64 ++ 0x4#4 ++ 0#1 ++ 0#1 ++ 0x00000123#32 ++ 0x9#4) =
      .ok (.transmit frameF1) := by decide

/-- The reserved opcodes at the edges of the map (R110). -/
theorem test_decode_reserved :
    decode 0x0#134 = .error (.reservedOpcode 0x0#4) ∧ decode 0xA#134 = .error (.reservedOpcode 0xA#4) ∧
      decode 0xFF#134 = .error (.reservedOpcode 0xF#4) := by decide

/-- The encoder writes the record of P1's TRANSMIT. -/
theorem test_encode_transmit : encode (.transmit frameF1) = 0x3BEFAB7790000001239#134 := by decide

/-- The opcode table's word of TRANSMIT, and one that is no command. -/
theorem test_decode_table_word :
    decodeTableWord 8 0x09 = some (.transmit ⟨0#32, false, false, 0#4, lanes []⟩) ∧ decodeTableWord 8 0x0A = none := by
  decide

/-! ### Ill-formed commands: a term for each check -/

/-- A standard identifier on its bound (V-F4), and the largest below it (V-F3). -/
theorem test_ill_formed_standard_identifier :
    (Instr.frameNew 0x7FF#32 0#32 (lanes []) false false).wellFormed = false ∧
      (Instr.frameNew 0x7FE#32 0#32 (lanes []) false false).wellFormed = true := by decide

/-- An extended identifier on its bound (V-F7), and the largest below it (V-F6). -/
theorem test_ill_formed_extended_identifier :
    (Instr.frameNew 0x1FFFFFFF#32 0#32 (lanes []) false true).wellFormed = false ∧
      (Instr.frameNew 0x1FFFFFFE#32 0#32 (lanes []) false true).wellFormed = true := by decide

/-- Nine bytes (V-F11), and eight. -/
theorem test_ill_formed_slice :
    (Instr.frameNew 1#32 9#32 (lanes []) false false).wellFormed = false ∧
      (Instr.frameNew 1#32 8#32 (lanes []) false false).wellFormed = true := by decide

/-- The raw records of V-A6 and V-A7 as operands of each frame command. -/
theorem test_ill_formed_frame : ∀ f ∈ [badIdFrame, badLenFrame],
    (Instr.frameId f).wellFormed = false ∧ (Instr.frameIsExtended f).wellFormed = false ∧
      (Instr.frameIsRtr f).wellFormed = false ∧ (Instr.frameData f).wellFormed = false ∧
      (Instr.serialize f).wellFormed = false ∧ (Instr.transmit f).wellFormed = false := by decide

/-- Baud rate 0 (V-P15), prescaler 0 (V-P23), prescaler 512 (V-P25), and the two ends that are legal (V-P22, V-P24). -/
theorem test_ill_formed_timing :
    (Instr.btrEncode 8000000#32 0#32).wellFormed = false ∧ (Instr.configure 15#32 1#32).wellFormed = false ∧
      (Instr.configure 8192#32 1#32).wellFormed = false ∧ (Instr.btrEncode 16#32 1#32).wellFormed = true ∧
      (Instr.configure 8176#32 1#32).wellFormed = true := by decide

/-- The parameters are admissible; a misaligned BASE (R63) and a bounded poll (R7) are not. -/
theorem test_parameters :
    params.admissible = true ∧ { params with base := 0x40006402 }.admissible = false ∧
      { params with base := 0xFFFFFF00 }.admissible = false ∧ { params with pollBound := some 4 }.admissible = false ∧
      { params with xlen := 16 }.admissible = false := by decide

/-- The default LAYOUT is admissible; two fields on one bit and a misaligned register are not (R40, R63). -/
theorem test_layout :
    layout.admissible = true ∧ { layout with sleep := ⟨0, 1⟩ }.admissible = false ∧
      { layout with exid29 := ⟨3, 28⟩ }.admissible = false ∧ { layout with tdtOffset := 0x185 }.admissible = false := by
  decide

/-- The fields the block does not look at make up the reset words (R40, R41, R48): DBF and SLEEP, SAMP, RX and SLAK. -/
theorem test_reset_fields :
    layout.mcrReset = fieldMask layout.dbf ||| fieldMask layout.sleep ∧
      layout.msrReset = fieldMask layout.rx ||| fieldMask layout.samp ||| fieldMask layout.slak := by decide

/-! ### One-step vectors of spec/95 -/

/-- V-F17: a remote frame with payload is accepted, and the bytes from `n` on are PAD whatever the lanes hold. -/
theorem test_frame_new :
    (match exec (.frameNew 0x100#32 2#32 (lanes [1#8, 2#8, 0x33#8]) true false) State.reset with
      | .next t => match t.result with
        | some (.frame f) => decide (f.raw = ⟨0x100#32, false, true, 2#4, lanes [1#8, 2#8]⟩)
        | _ => false
      | _ => false) = true := by decide

/-- V-F12 and V-F16: both tests are reported; a huge `n` wraps nowhere. -/
theorem test_frame_new_faults :
    refuses (exec (.frameNew 0x7FF#32 9#32 (lanes []) false false) State.reset) 1#4 3#32 = true ∧
      refuses (exec (.frameNew 1#32 0xFFFFFFFF#32 (lanes []) false false) State.reset) 1#4 2#32 = true := by decide

/-- V-A2 and V-A6. -/
theorem test_frame_id :
    gives (exec (.frameId frameF2) State.reset) (.word 0x12345678#32) = true ∧
      refuses (exec (.frameId badIdFrame) State.reset) 1#4 1#32 = true := by decide

/-- V-A2 and V-A3. -/
theorem test_frame_is_extended :
    gives (exec (.frameIsExtended frameF2) State.reset) (.flag true) = true ∧
      gives (exec (.frameIsExtended frameF3) State.reset) (.flag false) = true := by decide

/-- V-A2 and V-A3. -/
theorem test_frame_is_rtr :
    gives (exec (.frameIsRtr frameF2) State.reset) (.flag false) = true ∧
      gives (exec (.frameIsRtr frameF3) State.reset) (.flag true) = true := by decide

/-- V-A8 and V-A7. -/
theorem test_frame_data :
    gives (exec (.frameData padFrame) State.reset) (.bytes 2#4 [1#8, 2#8]) = true ∧
      refuses (exec (.frameData badLenFrame) State.reset) 1#4 2#32 = true := by decide

/-- V-S2: an extended frame. -/
theorem test_serialize_extended :
    gives (exec (.serialize frameF2) State.reset)
      (.words 0x00000008#32 0x91A2B3C4#32 0x04030201#32 0x08070605#32) = true := by decide

/-- V-S12: a standard frame, all eight bytes whatever `len` is. -/
theorem test_serialize_standard :
    gives (exec (.serialize padFrame) State.reset)
      (.words 0x00000002#32 0x00A00000#32 0xEEEE0201#32 0xEEEEEEEE#32) = true := by decide

/-- V-P5 and V-P8: truncation, and the largest prescaler. -/
theorem test_btr_encode :
    gives (exec (.btrEncode 36000000#32 500000#32) State.reset) (.word 0x001C0003#32) = true ∧
      gives (exec (.btrEncode 8176000#32 1000#32) State.reset) (.word 0x001C01FE#32) = true := by decide

/-- V-P9, V-P19 and V-P16: overflow at 512, no wrap-around of the product, and the order of the tests. -/
theorem test_btr_encode_faults :
    refuses (exec (.btrEncode 8192000#32 1000#32) State.reset) 2#4 0x200#32 = true ∧
      refuses (exec (.btrEncode 0xFFFFFFFF#32 0x10000000#32) State.reset) 3#4 0#32 = true ∧
      refuses (exec (.btrEncode 0#32 0#32) State.reset) 4#4 0#32 = true := by decide

/-- V-C4 and V-X7: the overflow at acceptance, and SequenceError before the operands. -/
theorem test_configure_faults :
    refuses (exec (.configure 8000000#32 1#32) State.reset) 2#4 0x0007A120#32 = true ∧
      refuses (exec (.configure 8000000#32 0#32) (configured .empty .empty .empty)) 6#4 8#32 = true := by decide

/-- V-C2, the timing write: `W(BTR,0x001C_0008)` for p = 9, stored in initialization mode. -/
theorem test_configure_timing_write :
    (match seqStep { configuring .cfBtrWr 0x00010001#32 0x00000C01#32 with pre := 9#32 } with
      | .next t => decide (t.trace = [.write .btr 0x001C0008#32]) && decide (t.periph.btr = 0x001C0008#32)
      | _ => false) = true := by decide

/-- V-X6 and V-X8: SequenceError before the frame, and the frame check without a read of TSR. -/
theorem test_transmit_faults :
    refuses (exec (.transmit badIdFrame) State.reset) 6#4 9#32 = true ∧
      refuses (exec (.transmit badLenFrame) (configured .empty .empty .empty)) 1#4 2#32 = true := by decide

/-- V-T2, the last write: `W(TI1R,0x91A2_B3C5)`, TME1 falls in the same step, QUEUED(1). -/
theorem test_transmit_request :
    (match seqStep (sending .txRqWr) with
      | .next t => decide (t.trace = [.write (.ti 1) 0x91A2B3C5#32]) && decide (tsrValue t.periph = 0x10000000#32) &&
          decide (t.lastTx = .queued 1) && decide (t.result = some (.outcome (.queued 1)))
      | _ => false) = true := by decide

/-- V-L9, V-L6 and V-L7. -/
theorem test_select :
    selectMailbox 0xE3FFFFFF#32 = none ∧ selectMailbox 0x08000000#32 = some 1 ∧
      selectMailbox 0x14000000#32 = some 0 := by decide

/-- V-M1 and V-M4. -/
theorem test_control_words :
    wakeWord 0x00010002#32 = 0x00010000#32 ∧ initWord 0x00010002#32 = 0x00010003#32 ∧
      exitWord 0xFFFFFFFF#32 = 0xFFFFFFFE#32 := by decide

/-- V-X2 and V-X9: a reserved opcode halts the block, and a halted block accepts nothing. -/
theorem test_reserved_command :
    refuses (seqStep { State.reset with cmd := some 0xA#134 }) 5#4 0xA#32 = true ∧
      seqStep { halted with cmd := some 0x2#134 } = .next { halted with cmd := some 0x2#134 } :=
  ⟨by decide, rfl⟩

/-- The status port after P3's first command and after V-T2: codes of R220, kinds and index of R24. -/
theorem test_status_port :
    (match exec (.configure 8000000#32 1#32) State.reset with
      | .next t => decide (statusPort t = ⟨false, false, true, 2#4, 0x0007A120#32, 0#2, 0#2⟩)
      | _ => false) = true ∧
    (match seqStep (sending .txRqWr) with
      | .next t => decide (statusPort t = ⟨true, false, false, 0#4, 0#32, 1#2, 1#2⟩)
      | _ => false) = true := by decide

/-- PERIPH may put any time stamp into a mailbox, Pending or Empty, and changes nothing else of its word (R45). -/
theorem test_stamp :
    (getBox (periphMove (.stamp 0 0xFFFF1234#32) (runningPeriph .pending .empty .empty)) 0).tdt = 0x12340000#32 ∧
      (getBox (periphMove (.stamp 1 0xABCD#32)
        (setBox (runningPeriph .pending .empty .empty) 1 ⟨0#32, 0xFFFF0008#32, 0#32, 0#32, .empty⟩)) 1).tdt =
        0xABCD0008#32 := by decide

/-- In TRANSMIT's window a time stamp is no step (R73, R204); before the status read it is one (R45). -/
theorem test_stamp_window :
    runTurn (.periph (.stamp 1 0x7#32)) (sending .txIdWr) = .next (sending .txIdWr) ∧
      (match runTurn (.periph (.stamp 1 0x7#32)) (sending .txTsrRd) with
        | .next t => decide ((getBox t.periph 1).tdt.extractLsb' 16 16 = 0x7#16)
        | _ => false) = true := ⟨rfl, by decide⟩

/-- Two addresses of the table of R66 in spec/95 Part 3. -/
theorem test_addresses : regAddress .btr = 0x4000641C#32 ∧ regAddress (.tdh 2) = 0x400065AC#32 := by decide

/-! ### Witnesses: for each obligation with hypotheses, a state and operands that meet them, clause by clause -/

/-- The state after reset is ready, and so is a configured one. -/
theorem ready_reset : Ready State.reset := ⟨rfl, rfl, rfl⟩

theorem ready_configured (a b c : MailboxState) : Ready (configured a b c) := ⟨rfl, rfl, rfl⟩

/-- The bus is ready in a configured block and in CONFIGURE after its pulse. -/
theorem busReady_configuring (p : Phase) (mcr msr : Word) : busReady (configuring p mcr msr) = true := rfl

theorem witness_EncodeInvertsDecode : decode 0x3BEFAB7790000001239#134 = .ok (.transmit frameF1) := by decide

theorem witness_ReservedOpcodesRejected :
    recordOp 0x0#134 = 0x0#4 ∧ recordOp 0x1#134 = 0x1#4 ∧ recordOp 0x9#134 = 0x9#4 ∧ recordOp 0xA#134 = 0xA#4 ∧
      recordOp 0xF#134 = 0xF#4 ∧ (∃ i, decode 0x1#134 = .ok i) ∧ ∃ i, decode 0x9#134 = .ok i :=
  ⟨by decide, by decide, by decide, by decide, by decide, ⟨_, rfl⟩, ⟨_, rfl⟩⟩

theorem witness_StepMovesScheduledAgent :
    { State.reset with turns := [.seq, .periph .ackWake] }.turns = .seq :: [.periph .ackWake] ∧
      State.reset.turns = [] := by decide

theorem witness_StepRunsPresentedCommand :
    Ready { State.reset with turns := [.seq], cmd := some 0x007A120007A12007#134 } ∧
      decode 0x007A120007A12007#134 = .ok (.btrEncode 8000000#32 500000#32) ∧
      decodeTableWord 8 0x09 = some (.transmit ⟨0#32, false, false, 0#4, lanes []⟩) :=
  ⟨⟨rfl, rfl, rfl⟩, by decide, by decide⟩

theorem witness_ReservedCommandFaults (r : CmdRecord) :
    Ready { State.reset with cmd := some r } ∧ { State.reset with cmd := some r }.cmd = some r ∧
      recordOp 0x0#134 = 0x0#4 ∧ 0xA ≤ (recordOp 0xA#134).toNat ∧ 0xA ≤ (recordOp 0xF#134).toNat :=
  ⟨⟨rfl, rfl, rfl⟩, rfl, by decide, by decide, by decide⟩

theorem witness_CommandsWaitUntilReady : ¬ Ready halted ∧ State.reset.ph = .idle ∧ State.reset.cmd = none :=
  ⟨fun h => absurd h.2.2 (by decide), rfl, rfl⟩

theorem witness_LaterStepsIgnoreCommandPort :
    (sending .txDlcWr).ph ≠ .idle ∧ ∃ t, seqStep (sending .txDlcWr) = .next t := ⟨by decide, _, rfl⟩

theorem witness_FrameNewConstructs :
    Ready State.reset ∧ LegalId false 0x7FE#32 ∧ LegalId true 0x1FFFFFFE#32 ∧ (0#32).toNat ≤ 8 ∧ (8#32).toNat ≤ 8 :=
  ⟨ready_reset, by decide, by decide, by decide, by decide⟩

theorem witness_FrameNewRefuses :
    Ready State.reset ∧ ¬ (LegalId false 0x7FF#32 ∧ (0#32).toNat ≤ 8) ∧
      ¬ (LegalId true 0x1FFFFFFF#32 ∧ (0#32).toNat ≤ 8) ∧ ¬ (LegalId false 1#32 ∧ (9#32).toNat ≤ 8) :=
  ⟨ready_reset, by decide, by decide, by decide⟩

theorem witness_FrameNewLaws :
    Ready State.reset ∧ (LegalId true 0x7FF#32 ∧ (8#32).toNat ≤ 8) ∧
      (¬ LegalId false 0x7FF#32 ∨ 8 < (8#32).toNat) ∧ (¬ LegalId false 0#32 ∨ 8 < (9#32).toNat) :=
  ⟨ready_reset, by decide, by decide, by decide⟩

/-- The frame operands of the five commands that take one and change nothing: a legal frame at each bound, and an
illegal one for each test. -/
theorem witness_frame_operands :
    Ready State.reset ∧ LegalFrame frameF3 ∧ LegalFrame frameF6 ∧ LegalFrame frameF2 ∧ ¬ LegalFrame badIdFrame ∧
      ¬ LegalFrame badLenFrame :=
  ⟨ready_reset, by decide, by decide, by decide, by decide, by decide⟩

theorem witness_FrameIdReturnsIdentifier : Ready State.reset ∧ LegalFrame frameF3 ∧ ¬ LegalFrame badIdFrame :=
  ⟨ready_reset, by decide, by decide⟩

theorem witness_FrameIsExtendedReturnsMode : Ready State.reset ∧ LegalFrame frameF6 ∧ ¬ LegalFrame badIdFrame :=
  ⟨ready_reset, by decide, by decide⟩

theorem witness_FrameIsRtrReturnsFlag : Ready State.reset ∧ LegalFrame frameF3 ∧ ¬ LegalFrame badLenFrame :=
  ⟨ready_reset, by decide, by decide⟩

theorem witness_FrameDataReturnsPayload : Ready State.reset ∧ LegalFrame frameF2 ∧ ¬ LegalFrame badLenFrame :=
  ⟨ready_reset, by decide, by decide⟩

theorem witness_SerializeReturnsWords : Ready State.reset ∧ LegalFrame frameF2 ∧ ¬ LegalFrame badLenFrame :=
  ⟨ready_reset, by decide, by decide⟩

theorem witness_IdentifierWordLayout : frameF6.ext = true ∧ frameF3.ext = false := by decide

theorem witness_SerializerLaws :
    LegalFrame frameF3 ∧ frameF3.ext = false ∧ LegalFrame frameF6 ∧ frameF6.ext = true ∧
      serialWords frameF3 ≠ serialWords frameF6 := by decide

theorem witness_PrescalerFunction :
    (500000#32 ≠ 0#32 ∧ (15#32).toNat / ((1#32).toNat * 16) = 0) ∧
      512 ≤ (8192#32).toNat / ((1#32).toNat * 16) ∧
      (1 ≤ (16#32).toNat / ((1#32).toNat * 16) ∧ (16#32).toNat / ((1#32).toNat * 16) < 512) ∧
      (1 ≤ (8191#32).toNat / ((1#32).toNat * 16) ∧ (8191#32).toNat / ((1#32).toNat * 16) < 512) := by decide

theorem witness_PrescalerCorners :
    2 ^ 28 ≤ (0x10000000#32).toNat ∧ (15#32).toNat < 16 * (1#32).toNat ∧ (16#32).toNat = 16 * (1#32).toNat ∧
      prescaler 8176#32 1#32 = .ok 511#32 ∧ prescaler 16#32 1#32 = .ok 1#32 :=
  ⟨by decide, by decide, by decide, rfl, rfl⟩

theorem witness_TimingWordLayout : 1 ≤ (1#32).toNat ∧ (511#32).toNat ≤ 511 := by decide

theorem witness_BtrEncodeReturnsTimingWord :
    Ready State.reset ∧ (15#32).toNat / ((1#32).toNat * 16) = 0 ∧ 512 ≤ (8192#32).toNat / ((1#32).toNat * 16) ∧
      1 ≤ (16#32).toNat / ((1#32).toNat * 16) ∧ (8191#32).toNat / ((1#32).toNat * 16) < 512 :=
  ⟨ready_reset, by decide, by decide, by decide, by decide⟩

theorem witness_ConfigureAcceptance :
    (Ready (configured .empty .empty .empty) ∧ (configured .empty .empty .empty).cfg = true) ∧
      (Ready State.reset ∧ State.reset.cfg = false) ∧ prescaler 8000000#32 0#32 = .error ⟨.baudRateZero, 0#32⟩ ∧
      prescaler 8192#32 1#32 = .error ⟨.prescalerOverflow, 512#32⟩ ∧ prescaler 8176#32 1#32 = .ok 511#32 :=
  ⟨⟨ready_configured _ _ _, rfl⟩, ⟨ready_reset, rfl⟩, rfl, rfl, rfl⟩

theorem witness_ConfigureResetPulse : ∀ p ∈ [Phase.cfEn, .cfRstA, .cfRstD], (configuring p 0#32 0#32).ph = p := by
  decide

theorem witness_ConfigureRequestWrites :
    (∀ p ∈ [Phase.cfWakeRd, .cfInitRd, .cfExitRd],
      busReady (configuring p 0x00010002#32 0x00000C02#32) = true ∧ (configuring p 0x00010002#32 0x00000C02#32).ph = p) ∧
    ∀ p ∈ [Phase.cfWakeWr, .cfInitWr, .cfExitWr],
      busReady (configuring p 0x00010002#32 0x00000C02#32) = true ∧
        (configuring p 0x00010002#32 0x00000C02#32).ph = p := by decide

theorem witness_ConfigureTimingWrite :
    busReady (configuring .cfBtrWr 0x00010001#32 0x00000C01#32) = true ∧
      (configuring .cfBtrWr 0x00010001#32 0x00000C01#32).pre = 511#32 ∧
      (configuring .cfBtrWr 0x00010001#32 0x00000C01#32).periph.msr.getLsbD 0 = true ∧
      (configuring .cfBtrWr 0x00010001#32 0x00000C00#32).periph.msr.getLsbD 0 = false := by decide

theorem witness_ConfigurePolls :
    (∀ p ∈ [Phase.cfWakePoll, .cfInitPoll, .cfExitPoll], busReady (configuring p 0#32 0#32) = true ∧
      (configuring p 0#32 0#32).ph = p) ∧
      (configuring .cfExitPoll 0#32 0x00000C01#32).periph.msr.getLsbD 0 = true ∧
      (configuring .cfExitPoll 0#32 0x00000C00#32).periph.msr.getLsbD 0 = false := by decide

/-- The block after reset with V-C1's command on the port and the turns of `a`, `b` and `c` fruitless polls. -/
def bringUp (a b c : Nat) : State :=
  { State.reset with
    cmd := some (encode (.configure 8000000#32 500000#32))
    turns := List.replicate (6 + a) .seq ++ .periph .ackWake :: (List.replicate (3 + b) .seq ++
      .periph .ackInit :: (List.replicate (4 + c) .seq ++ .periph .ackExit :: .seq :: [])) }

theorem witness_ConfigureCompletes :
    Ready (bringUp 0 0 0) ∧ (bringUp 0 0 0).cfg = false ∧
      (bringUp 0 0 0).cmd = some (encode (.configure 8000000#32 500000#32)) ∧
      prescaler 8000000#32 500000#32 = .ok 1#32 ∧
      (bringUp 2 1 0).turns = List.replicate (6 + 2) .seq ++ .periph .ackWake :: (List.replicate (3 + 1) .seq ++
        .periph .ackInit :: (List.replicate (4 + 0) .seq ++ .periph .ackExit :: .seq :: [])) :=
  ⟨⟨rfl, rfl, rfl⟩, rfl, rfl, rfl, rfl⟩

theorem witness_UnacknowledgedPollHangs :
    busReady { configuring .cfWakePoll 0#32 0x00000C02#32 with turns := List.replicate 3 .seq ++ [] } = true ∧
      (configuring .cfWakePoll 0#32 0x00000C02#32).periph.msr.getLsbD 1 = true ∧
      (configuring .cfInitPoll 1#32 0x00000C00#32).periph.msr.getLsbD 0 = false ∧
      (configuring .cfExitPoll 0#32 0x00000C01#32).periph.msr.getLsbD 0 = true := by decide

theorem witness_TransmitAcceptance :
    (Ready State.reset ∧ State.reset.cfg = false) ∧
      (Ready (configured .empty .empty .empty) ∧ (configured .empty .empty .empty).cfg = true) ∧
      ¬ LegalFrame badIdFrame ∧ ¬ LegalFrame badLenFrame ∧ LegalFrame frameF6 ∧ LegalFrame frameF2 :=
  ⟨⟨ready_reset, rfl⟩, ⟨ready_configured _ _ _, rfl⟩, by decide, by decide, by decide, by decide⟩

/-- Mailbox 2 as the lowest Empty one, mailbox 0, and none. -/
theorem witness_TransmitStatusRead :
    busReady (sending .txTsrRd) = true ∧ (sending .txTsrRd).ph = .txTsrRd ∧
      ((getBox (runningPeriph .pending .pending .empty) 2).mbs = .empty ∧
        ∀ k : MailboxIndex, k < 2 → (getBox (runningPeriph .pending .pending .empty) k).mbs = .pending) ∧
      ((getBox (runningPeriph .empty .pending .empty) 0).mbs = .empty ∧
        ∀ k : MailboxIndex, k < 0 → (getBox (runningPeriph .empty .pending .empty) k).mbs = .pending) ∧
      ∀ m : MailboxIndex, (getBox (runningPeriph .pending .pending .pending) m).mbs = .pending := by decide

theorem witness_TransmitDataWrites : ∀ p ∈ [Phase.txDlcWr, .txIdWr, .txDlWr, .txDhWr],
    busReady (sending p) = true ∧ (getBox (sending p).periph (sending p).mb).mbs = .empty ∧ (sending p).ph = p := by
  decide

theorem witness_TransmitRequestWrite :
    busReady (sending .txRqWr) = true ∧ (getBox (sending .txRqWr).periph (sending .txRqWr).mb).mbs = .empty ∧
      (sending .txRqWr).ph = .txRqWr := by decide

/-- A configured block with a TRANSMIT of V-F6's frame on the port, mailbox 0 Pending, and turns as given. -/
def presented (ts : List Turn) : State :=
  { configured .pending .empty .empty with cmd := some (encode (.transmit frameF6)), turns := ts }

theorem witness_TransmitFillsMailbox :
    Ready (presented (List.replicate 7 .seq)) ∧ (presented (List.replicate 7 .seq)).cfg = true ∧
      busReady (presented (List.replicate 7 .seq)) = true ∧ LegalFrame frameF6 ∧
      (getBox (presented (List.replicate 7 .seq)).periph 1).mbs = .empty ∧
      (∀ k : MailboxIndex, k < 1 → (getBox (presented (List.replicate 7 .seq)).periph k).mbs = .pending) ∧
      (presented (List.replicate 7 .seq)).turns = List.replicate 7 .seq ++ [] :=
  ⟨⟨rfl, rfl, rfl⟩, rfl, rfl, by decide, rfl, by decide, rfl⟩

/-- The invariant holds of a configured block whatever is on its command port and whatever turns are to come. -/
theorem invariant_presented (ts : List Turn) : Invariant (presented ts) where
  busyExact := rfl
  faultExact := rfl
  noFault := fun _ => ⟨rfl, rfl⟩
  hasCode := fun h => absurd h Bool.false_ne_true
  configuring := fun h => absurd h Bool.false_ne_true
  transmitting := fun _ => rfl
  clockEnabled := fun _ => rfl
  busIsReady := fun _ => rfl
  normal := fun _ => ⟨(by decide : fieldBit layout.sleep 0x00010000#32 = false),
    (by decide : fieldBit layout.inrq 0x00010000#32 = false),
    (by decide : fieldBit layout.slak 0x00000C00#32 = false),
    (by decide : fieldBit layout.inak 0x00000C00#32 = false)⟩
  latched := fun h => absurd h Bool.false_ne_true
  sleepClear := fun h => absurd h Bool.false_ne_true
  slakClear := fun h => absurd h Bool.false_ne_true
  inrqSet := fun h => absurd h Bool.false_ne_true
  inakSet := fun h => absurd h Bool.false_ne_true
  inrqClear := fun h => absurd h Phase.noConfusion
  prescalerRange := fun h => absurd h Bool.false_ne_true
  frameWf := fun h => absurd h Bool.false_ne_true
  boxEmpty := fun h => absurd h Bool.false_ne_true
  requestExact := fun m => (by decide : ∀ m : MailboxIndex,
    fieldBit layout.txrq (getBox (runningPeriph .pending .empty .empty) m).ti =
      decide ((getBox (runningPeriph .pending .empty .empty) m).mbs = .pending)) m
  mcrReservedZero := (by decide : 0x00010000#32 &&& mcrReserved = 0#32)

/-- Seven turns of SEQ with a completion of mailbox 0, a drift and a time stamp between them. -/
def sevenTurns : List Turn :=
  [.seq, .periph (.complete 0 0x3#4 0#32 0#32 0#32 0#32), .seq, .periph (.drift 0#32 0#32),
    .periph (.stamp 1 0x7#32), .seq, .seq, .seq, .seq, .seq]

theorem witness_TransmitTraceUnderInterleaving :
    Invariant (presented sevenTurns) ∧ Ready (presented sevenTurns) ∧ (presented sevenTurns).cfg = true ∧
      LegalFrame frameF6 ∧ (presented sevenTurns).cmd = some (encode (.transmit frameF6)) ∧
      (presented sevenTurns).turns = sevenTurns ++ [] ∧ (∀ t ∈ sevenTurns, quietTurn t = true) ∧
      sevenTurns.count .seq = 7 :=
  ⟨invariant_presented _, ⟨rfl, rfl, rfl⟩, rfl, by decide, rfl, rfl, by decide, by decide⟩

theorem witness_FaultsAreEarlyAndPrecise :
    (∃ t, exec (.transmit frameF1) State.reset = .next t ∧ State.reset.fault = false ∧ t.fault = true) ∧
      (sending .txRqWr).ph ≠ .idle ∧ ∃ t, seqStep (sending .txRqWr) = .next t :=
  ⟨⟨_, rfl, rfl, rfl⟩, by decide, _, rfl⟩

theorem witness_FaultExactlyOnIllegalOperands :
    Ready State.reset ∧ State.reset.cfg = false ∧ Ready (configured .empty .empty .empty) ∧
      (configured .empty .empty .empty).cfg = true ∧ (Instr.configure 8192#32 1#32).wellFormed = false ∧
      (Instr.configure 8191#32 1#32).wellFormed = true ∧ (Instr.transmit badIdFrame).wellFormed = false ∧
      (Instr.transmit frameF6).wellFormed = true :=
  ⟨ready_reset, rfl, ready_configured _ _ _, rfl, by decide, by decide, by decide, by decide⟩

theorem witness_PureCommandsIgnoreState :
    Ready State.reset ∧ Ready (configured .empty .empty .empty) ∧
      (∃ t, exec (.serialize frameF1) State.reset = .next t) ∧
      (∃ t, exec (.serialize frameF1) (configured .empty .empty .empty) = .next t) ∧
      (∀ clock baud, Instr.serialize frameF1 ≠ .configure clock baud) ∧
      ∀ f, Instr.serialize frameF1 ≠ .transmit f :=
  ⟨ready_reset, ready_configured _ _ _, ⟨_, rfl⟩, ⟨_, rfl⟩, fun _ _ => Instr.noConfusion, fun _ => Instr.noConfusion⟩

theorem witness_UnnamedStatusBitsIgnored :
    (∃ t, (sending .txTsrRd).ph = .txTsrRd ∧ seqStep (sending .txTsrRd) = .next t) ∧
      ∀ p ∈ [Phase.cfWakePoll, .cfInitPoll, .cfExitPoll], (configuring p 0#32 0x00000C02#32).ph = p ∧
        (0x00000002#32).getLsbD 0 = (configuring p 0#32 0x00000C02#32).periph.msr.getLsbD 0 ∧
        (0x00000002#32).getLsbD 1 = (configuring p 0#32 0x00000C02#32).periph.msr.getLsbD 1 :=
  ⟨⟨_, rfl, rfl⟩, by decide⟩

theorem witness_HaltEndsOnlyByReset :
    halted.ph = .halt ∧ (∃ u, runTurn (.host (.offer 0x2#134)) halted = .next u) ∧
      ∀ l, Turn.host (.offer 0x2#134) ≠ .host (.blockReset l) :=
  ⟨rfl, ⟨_, rfl⟩, fun _ h => by injection h with h; exact HostMove.noConfusion h⟩

theorem witness_ConfiguredOnlyByConfigure :
    (∃ u, runTurn .seq (configuring .cfExitPoll 0#32 0x00000C00#32) = .next u ∧
      (configuring .cfExitPoll 0#32 0x00000C00#32).cfg = false ∧ u.cfg = true) ∧
      ∃ u, runTurn (.host (.blockReset default)) (configured .empty .empty .empty) = .next u ∧
        (configured .empty .empty .empty).cfg = true ∧ u.cfg = false :=
  ⟨⟨_, rfl, rfl, rfl⟩, ⟨_, rfl, rfl, rfl⟩⟩

theorem witness_LastOutcomeOnlyByTransmit :
    (∃ u, runTurn .seq (sending .txRqWr) = .next u ∧ u.lastTx ≠ (sending .txRqWr).lastTx) ∧
      (∃ u, runTurn .seq { sending .txTsrRd with periph := runningPeriph .pending .pending .pending } = .next u ∧
        u.lastTx ≠ (sending .txTsrRd).lastTx) ∧
      ∃ u, runTurn (.host (.blockReset default)) { configured .empty .empty .empty with lastTx := .dropped } = .next u ∧
        u.lastTx ≠ .dropped :=
  ⟨⟨_, rfl, by decide⟩, ⟨_, rfl, by decide⟩, ⟨_, rfl, by decide⟩⟩

theorem witness_MailboxStateChanges :
    (∃ u, runTurn .seq (sending .txRqWr) = .next u ∧ (getBox (sending .txRqWr).periph 1).mbs = .empty ∧
      (getBox u.periph 1).mbs = .pending) ∧
      (∃ u, runTurn (.periph (.complete 0 0x3#4 0#32 0#32 0#32 0#32)) (sending .txRqWr) = .next u ∧
        (getBox (sending .txRqWr).periph 0).mbs = .pending ∧ (getBox u.periph 0).mbs = .empty) ∧
      (∃ u, runTurn .seq (sending .cfRstA) = .next u ∧ (getBox (sending .cfRstA).periph 0).mbs = .pending ∧
        (getBox u.periph 0).mbs = .empty) ∧
      (writesMailbox (sending .txDlcWr).ph = true ∧
        ∃ u, runTurn (.periph (.stamp 1 0x7#32)) (sending .txDlcWr) = .next u) ∧
      writesMailbox (sending .txRqWr).ph = true :=
  ⟨⟨_, rfl, rfl, rfl⟩, ⟨_, rfl, rfl, rfl⟩, ⟨_, rfl, rfl, rfl⟩, ⟨rfl, _, rfl⟩, rfl⟩

theorem witness_CompleteEmptiesMailbox :
    (getBox (runningPeriph .pending .empty .empty) 0).mbs = .pending ∧
      (getBox (runningPeriph .pending .empty .empty) 2).mbs = .empty := by decide

theorem witness_AcknowledgesFollowRequests :
    (runningPeriph .empty .empty .empty).mcr.getLsbD 1 = false ∧
      (runningPeriph .empty .empty .empty).mcr.getLsbD 0 = false ∧
      (configuring .cfInitPoll 1#32 0#32).periph.mcr.getLsbD 0 = true ∧
      State.reset.periph.mcr.getLsbD 1 = true ∧ State.reset.periph.msr.getLsbD 1 = true ∧
      (runningPeriph .empty .empty .empty).mcr.getLsbD 0 = (runningPeriph .empty .empty .empty).msr.getLsbD 0 := by
  decide

theorem witness_BusWriteEffects :
    (configuring .cfBtrWr 1#32 1#32).periph.msr.getLsbD 0 = true ∧
      (runningPeriph .pending .empty .empty).msr.getLsbD 0 = false ∧
      (getBox (runningPeriph .pending .empty .empty) 2).mbs = .empty ∧
      (getBox (runningPeriph .pending .empty .empty) 0).mbs = .pending := by decide

theorem witness_StepKeepsInvariant : Invariant (presented [.seq]) ∧ ∃ t, step (presented [.seq]) = .next t :=
  ⟨invariant_presented _, _, rfl⟩

theorem witness_InvariantStatesNeverStop : Invariant (presented []) := invariant_presented _

end Sys2Proof.Tests
end

/-! Well-formedness of a frame in the spec's own numbers (R22, R131). -/

namespace Sys2Proof.Proofs

open Sys2Proof.Machine Sys2Proof.Safety

/-- The length test passes up to the eighth byte (R6, R131). -/
theorem badLen_eq_false_iff (n : Nat) : badLen n = false ↔ n ≤ 8 := by
  have hmax : params.maxLen = 8 := rfl
  simp [badLen, hmax]

/-- The identifier test passes strictly below the bound of the mode (R6, R131, C1). -/
theorem badId_eq_false_iff (ext : Bool) (id : Word) : badId ext id = false ↔ LegalId ext id := by
  have hstd : params.stdBound = 0x7FF := rfl
  have hext : params.extBound = 0x1FFFFFFF := rfl
  cases ext
  case false => simp [badId, LegalId, hstd]
  case true => simp [badId, LegalId, hext]

/-- `WF` in the spec's numbers (R22). -/
theorem wf_iff_legalFrame (f : RawFrame) : f.wf = true ↔ LegalFrame f := by
  rw [RawFrame.wf, Bool.and_eq_true, Bool.not_eq_true', Bool.not_eq_true', badLen_eq_false_iff, badId_eq_false_iff]

/-- `WF` does not read the data bytes (R22). -/
theorem wf_withData (f : RawFrame) (d : Payload) : { f with data := d }.wf = f.wf := rfl

/-- A Frame carries its well-formedness (R21, R22). -/
theorem legalFrame_raw (g : Frame) : LegalFrame g.raw := (wf_iff_legalFrame g.raw).mp g.isWf

/-- Settles O10, from what each of the two tests of `WF` admits. -/
theorem frameWellFormedness : Obligations.FrameWellFormedness :=
  ⟨wf_iff_legalFrame, wf_withData, legalFrame_raw⟩

end Sys2Proof.Proofs

/-! The pure commands (R130, R165): each is one acceptance step that ends with the value of a function of the operands,
so what a command does to a ready block is said once for every such value. -/

namespace Sys2Proof.Proofs

open Sys2Proof.Machine Sys2Proof.Safety Sys2Proof.Laws

/-- A pure command that has a result completes with it (R10, R93). -/
theorem accept_finish_ok (r : Result) {s : State} (hs : Ready s) :
    accept (finish (.ok r)) s = .next (completed s r) :=
  accept_ready _ s ((canAccept_iff s).mpr hs)

/-- A pure command whose operands are refused raises their fault (R10, R230). -/
theorem accept_finish_error (x : FaultRaise) {s : State} (hs : Ready s) :
    accept (finish (.error x)) s = .next (faulted s x.code x.info) :=
  accept_ready _ s ((canAccept_iff s).mpr hs)

/-- A completed command leaves the block ready for the next one (R93). -/
theorem ready_completed {s : State} (hs : Ready s) (r : Result) : Ready (completed s r) := by
  obtain ⟨_, _, hfault⟩ := hs
  exact ⟨rfl, rfl, hfault⟩

/-- The end of a pure command is decided by the value it ends with, in whichever ready state it is issued (R130). -/
theorem accept_finish_agree (r : Except FaultRaise Result) {s s' : State} (hs : Ready s) (hs' : Ready s') :
    (∃ v, accept (finish r) s = .next (completed s v) ∧ accept (finish r) s' = .next (completed s' v)) ∨
      ∃ code info, accept (finish r) s = .next (faulted s code info) ∧
        accept (finish r) s' = .next (faulted s' code info) := by
  cases r with
  | ok v => exact .inl ⟨v, accept_finish_ok v hs, accept_finish_ok v hs'⟩
  | error x => exact .inr ⟨x.code, x.info, accept_finish_error x hs, accept_finish_error x hs'⟩

/-- Settles O46: every command but CONFIGURE and TRANSMIT ends with a value its operands alone determine. -/
theorem pureCommandsIgnoreState : Obligations.PureCommandsIgnoreState := by
  intro i s s' hconfigure htransmit hs hs'
  cases i with
  | configure clock baud => exact absurd rfl (hconfigure clock baud)
  | transmit f => exact absurd rfl (htransmit f)
  | frameNew id n data remote extended => exact accept_finish_agree _ hs hs'
  | frameId f => exact accept_finish_agree _ hs hs'
  | frameIsExtended f => exact accept_finish_agree _ hs hs'
  | frameIsRtr f => exact accept_finish_agree _ hs hs'
  | frameData f => exact accept_finish_agree _ hs hs'
  | serialize f => exact accept_finish_agree _ hs hs'
  | btrEncode clock baud => exact accept_finish_agree _ hs hs'

/-- The information word of the two tests is R221's `{30'b0, bad_len, bad_id}`. -/
theorem frameFaultInfo_eq (ext : Bool) (id : Word) (len : Nat) :
    frameFaultInfo ext id len = 0#30 ++ BitVec.ofBool (badLen len) ++ BitVec.ofBool (badId ext id) := by
  have hlen : 8 < len ↔ badLen len = true := by rw [← Nat.not_le, ← badLen_eq_false_iff, Bool.not_eq_false]
  have hid : LegalId ext id ↔ badId ext id = false := (badId_eq_false_iff ext id).symm
  simp only [frameFaultInfo, hlen, hid]
  cases badLen len <;> cases badId ext id <;> rfl

/-- A pure command whose operands fail a frame test raises InvalidFrameParameters and reports both (R131, R137). -/
theorem accept_invalidFrame (ext : Bool) (id : Word) (len : Nat) {s : State} (hs : Ready s) :
    accept (finish (.error (invalidFrame (badLen len) (badId ext id)))) s =
      .next (faulted s .invalidFrameParameters (frameFaultInfo ext id len)) := by
  rw [frameFaultInfo_eq]
  exact accept_finish_error _ hs

/-- A command on a frame operand completes with what it reads off a legal frame (R137). -/
theorem accept_checkFrame_legal (read : Frame → Result) {f : RawFrame} {s : State} (hs : Ready s)
    (hf : LegalFrame f) :
    accept (finish ((checkFrame f).map read)) s =
      .next (completed s (read ⟨f, (wf_iff_legalFrame f).mpr hf⟩)) := by
  rw [checkFrame_of_wf f ((wf_iff_legalFrame f).mpr hf)]
  exact accept_finish_ok _ hs

/-- A command on an illegal frame operand raises the fault of the frame-operand check (R137). -/
theorem accept_checkFrame_illegal (read : Frame → Result) {f : RawFrame} {s : State} (hs : Ready s)
    (hf : ¬ LegalFrame f) :
    accept (finish ((checkFrame f).map read)) s =
      .next (faulted s .invalidFrameParameters (frameFaultInfo f.ext f.id f.len.toNat)) := by
  have hwf : f.wf = false := Bool.eq_false_iff.mpr (mt (wf_iff_legalFrame f).mp hf)
  rw [checkFrame_of_not_wf f hwf]
  exact accept_invalidFrame f.ext f.id f.len.toNat hs

/-! The four accessors on a legal frame (R133 to R136). -/

/-- FRAME_ID on a legal frame (R133). -/
theorem exec_frameId_legal {f : RawFrame} {s : State} (hs : Ready s) (hf : LegalFrame f) :
    exec (.frameId f) s = .next (completed s (.word f.id)) :=
  accept_checkFrame_legal (fun g => .word g.raw.id) hs hf

/-- FRAME_IS_EXTENDED on a legal frame (R134). -/
theorem exec_frameIsExtended_legal {f : RawFrame} {s : State} (hs : Ready s) (hf : LegalFrame f) :
    exec (.frameIsExtended f) s = .next (completed s (.flag f.ext)) :=
  accept_checkFrame_legal (fun g => .flag g.raw.ext) hs hf

/-- FRAME_IS_RTR on a legal frame (R135). -/
theorem exec_frameIsRtr_legal {f : RawFrame} {s : State} (hs : Ready s) (hf : LegalFrame f) :
    exec (.frameIsRtr f) s = .next (completed s (.flag f.rtr)) :=
  accept_checkFrame_legal (fun g => .flag g.raw.rtr) hs hf

/-- FRAME_DATA on a legal frame (R136). -/
theorem exec_frameData_legal {f : RawFrame} {s : State} (hs : Ready s) (hf : LegalFrame f) :
    exec (.frameData f) s = .next (completed s (.bytes f.len ((payloadList f.data).take f.len.toNat))) :=
  accept_checkFrame_legal (fun g => .bytes g.raw.len ((payloadList g.raw.data).take g.raw.len.toNat)) hs hf

/-- Settles O14, from the frame-operand check. -/
theorem frameIdReturnsIdentifier : Obligations.FrameIdReturnsIdentifier :=
  fun _ _ hs => ⟨rfl, exec_frameId_legal hs, accept_checkFrame_illegal _ hs⟩

/-- Settles O15, from the frame-operand check. -/
theorem frameIsExtendedReturnsMode : Obligations.FrameIsExtendedReturnsMode :=
  fun _ _ hs => ⟨rfl, exec_frameIsExtended_legal hs, accept_checkFrame_illegal _ hs⟩

/-- Settles O16, from the frame-operand check. -/
theorem frameIsRtrReturnsFlag : Obligations.FrameIsRtrReturnsFlag :=
  fun _ _ hs => ⟨rfl, exec_frameIsRtr_legal hs, accept_checkFrame_illegal _ hs⟩

/-! The byte lanes as a list (R21, R92, R136). -/

/-- A payload has eight bytes (R21). -/
@[simp] theorem length_payloadList (d : Payload) : (payloadList d).length = 8 := rfl

/-- The list holds the lanes in index order (R136). -/
theorem getElem?_payloadList (d : Payload) {i : Nat} (hi : i < 8) : (payloadList d)[i]? = some (payloadByte d i) := by
  interval_cases i <;> rfl

/-- The first `n` bytes are the lanes below `n` (R136). -/
theorem getElem?_take_payloadList (d : Payload) {i n : Nat} (hn : n ≤ 8) (hi : i < n) :
    ((payloadList d).take n)[i]? = some (payloadByte d i) := by
  rw [List.getElem?_take_of_lt hi, getElem?_payloadList d (hi.trans_le hn)]

/-- Settles O17: the bytes presented are the frame's first `len` lanes. -/
theorem frameDataReturnsPayload : Obligations.FrameDataReturnsPayload := by
  refine fun f s hs => ⟨rfl, fun hf => ?_, accept_checkFrame_illegal _ hs⟩
  have hlen : f.len.toNat ≤ 8 := hf.1
  refine ⟨(payloadList f.data).take f.len.toNat, ?_, fun i => getElem?_take_payloadList f.data hlen,
    exec_frameData_legal hs hf⟩
  rw [List.length_take, length_payloadList, Nat.min_eq_left hlen]

/-! FRAME_NEW and the frame it builds (R131, R132). -/

/-- A lane of the payload built from `b` is `b`'s value there (R92). -/
theorem payloadByte_payloadOf (b : Nat → Byte) {i : Nat} (hi : i < 8) : payloadByte (payloadOf b) i = b i := by
  interval_cases i <;> rfl

/-- A lane of FRAME_NEW's buffer: the slice's byte below `n`, PAD from there on (R131). -/
theorem payloadByte_payloadPadded (n : Nat) (d : Payload) {i : Nat} (hi : i < 8) :
    payloadByte (payloadPadded n d) i = if i < n then payloadByte d i else params.pad :=
  payloadByte_payloadOf _ hi

/-- Padding leaves the first `n` bytes as the slice has them (R132 (c)). -/
theorem take_payloadPadded {n : Nat} (hn : n ≤ 8) (d : Payload) :
    (payloadList (payloadPadded n d)).take n = (payloadList d).take n := by
  refine List.ext_getElem? fun i => ?_
  by_cases hi : i < n
  · rw [getElem?_take_payloadList _ hn hi, getElem?_take_payloadList _ hn hi,
      payloadByte_payloadPadded n d (hi.trans_le hn), if_pos hi]
  · rw [List.getElem?_take_eq_none (Nat.not_lt.mp hi), List.getElem?_take_eq_none (Nat.not_lt.mp hi)]

/-- The length field is the low four bits of the slice length (R131). -/
theorem newRaw_len (id n : Word) (data : Payload) (remote extended : Bool) :
    (newRaw id n data remote extended).len = n.setWidth 4 :=
  (BitVec.setWidth_eq_extractLsb' (by decide)).symm

/-- The length field of a frame of up to eight bytes is their number (R131). -/
theorem newRaw_len_toNat (id : Word) {n : Word} (data : Payload) (remote extended : Bool) (hn : n.toNat ≤ 8) :
    (newRaw id n data remote extended).len.toNat = n.toNat := by
  rw [newRaw_len, BitVec.toNat_setWidth, Nat.mod_eq_of_lt (by omega)]

/-- FRAME_NEW on legal operands completes with the frame R131 builds. -/
theorem exec_frameNew_legal {id n : Word} {extended : Bool} (data : Payload) (remote : Bool) {s : State}
    (hs : Ready s) (hid : LegalId extended id) (hn : n.toNat ≤ 8) :
    ∃ f : Frame, f.raw = newRaw id n data remote extended ∧
      exec (.frameNew id n data remote extended) s = .next (completed s (.frame f)) := by
  have htests : (badId extended id || badLen n.toNat) = false := by
    rw [(badId_eq_false_iff extended id).mpr hid, (badLen_eq_false_iff n.toNat).mpr hn, Bool.or_false]
  obtain ⟨f, hnew, hraw⟩ := newFrame_ok data remote htests
  refine ⟨f, hraw, ?_⟩
  rw [exec, execFrameNew, hnew]
  exact accept_finish_ok _ hs

/-- FRAME_NEW on operands that fail a test raises InvalidFrameParameters and reports both tests (R131, R221). -/
theorem exec_frameNew_illegal {id n : Word} {extended : Bool} (data : Payload) (remote : Bool) {s : State}
    (hs : Ready s) (h : ¬ (LegalId extended id ∧ n.toNat ≤ 8)) :
    exec (.frameNew id n data remote extended) s =
      .next (faulted s .invalidFrameParameters (frameFaultInfo extended id n.toNat)) := by
  have htests : (badId extended id || badLen n.toNat) = true := by
    rwa [← badId_eq_false_iff, ← badLen_eq_false_iff, ← Bool.or_eq_false_iff, Bool.not_eq_false] at h
  rw [exec, execFrameNew, newFrame_error data remote htests]
  exact accept_invalidFrame extended id n.toNat hs

/-- FRAME_DATA on a frame that FRAME_NEW built gives the slice back (R132 (c)). -/
theorem exec_frameData_newRaw {id n : Word} {extended : Bool} (data : Payload) (remote : Bool) {s : State}
    (hs : Ready s) (hn : n.toNat ≤ 8) (hf : LegalFrame (newRaw id n data remote extended)) :
    exec (.frameData (newRaw id n data remote extended)) s =
      .next (completed s (.bytes (n.setWidth 4) ((payloadList data).take n.toNat))) := by
  rw [exec_frameData_legal hs hf, newRaw_len_toNat id data remote extended hn, newRaw_len, newRaw_data,
    take_payloadPadded hn]

/-- Settles O13: the accessors run on the state that FRAME_NEW leaves, which is ready again. -/
theorem frameNewLaws : Obligations.FrameNewLaws := by
  refine fun id n data remote extended s hs => ⟨fun ⟨hid, hn⟩ => ?_, fun hbad => ?_⟩
  · obtain ⟨f, hraw, hexec⟩ := exec_frameNew_legal data remote hs hid hn
    have hready := ready_completed hs (.frame f)
    have hlegal := legalFrame_raw f
    refine ⟨f, _, hexec, rfl, hlegal, ?_⟩
    rw [hraw] at hlegal ⊢
    exact ⟨⟨_, exec_frameId_legal hready hlegal, rfl⟩, ⟨_, exec_frameIsExtended_legal hready hlegal, rfl⟩,
      ⟨_, exec_frameIsRtr_legal hready hlegal, rfl⟩, ⟨_, exec_frameData_newRaw data remote hready hn hlegal, rfl⟩⟩
  · have hillegal : ¬ (LegalId extended id ∧ n.toNat ≤ 8) := by rwa [not_and_or, Nat.not_le]
    exact ⟨_, exec_frameNew_illegal data remote hs hillegal, rfl, rfl⟩

end Sys2Proof.Proofs

/-! Faults (R229): only an acceptance step raises one, by the fault entry of a named fault and by nothing else; no later
phase touches the three fields a fault writes. -/

namespace Sys2Proof.Proofs

open Sys2Proof.Machine Sys2Proof.Safety Sys2Proof.Laws

/-- Every fault `r` can end in has a code other than NONE (R220). -/
def FaultsNamed {α : Type} (r : Except FaultRaise α) : Prop := ∀ x, r = .error x → x.code ≠ .none

/-- The part of a command in its acceptance step either leaves FAULT as it is or is the fault entry of a named fault
(R230). -/
def FaultsOnlyByRaise (body : State → State) : Prop :=
  ∀ s, (body s).fault = s.fault ∨ ∃ x : FaultRaise, x.code ≠ .none ∧ body s = raise x s

/-- A fault that appears between `s` and `t` is the fault entry of a ready block and nothing more (R229). -/
def PreciseFault (s t : State) : Prop :=
  s.fault = false → t.fault = true → Ready s ∧ t.fcode ≠ .none ∧ t = faulted s t.fcode t.finfo

/-- The fields that fault entry alone writes and only block reset clears (R23, R29, R230). -/
def faultEntry (s : State) : Bool × FaultCode × Word := (s.fault, s.fcode, s.finfo)

/-! The faults of the operand checks have codes of their own (R220). -/

/-- What a command reads off the checked operands adds no fault (R130). -/
theorem faultsNamed_map {α β : Type} (f : α → β) {r : Except FaultRaise α} (hr : FaultsNamed r) :
    FaultsNamed (r.map f) := by
  cases r with
  | ok v => exact fun x h => nomatch h
  | error y =>
    intro x h
    injection h with h
    exact h ▸ hr y rfl

/-- The frame-operand check faults with InvalidFrameParameters only (R137). -/
theorem faultsNamed_checkFrame (f : RawFrame) : FaultsNamed (checkFrame f) := by
  intro x h
  cases hwf : f.wf with
  | true => rw [checkFrame_of_wf f hwf] at h; cases h
  | false => rw [checkFrame_of_not_wf f hwf] at h; cases h; exact FaultCode.noConfusion

/-- FRAME_NEW faults with InvalidFrameParameters only (R131). -/
theorem faultsNamed_newFrame (id n : Word) (data : Payload) (remote extended : Bool) :
    FaultsNamed (newFrame id n data remote extended) := by
  intro x h
  cases htests : (badId extended id || badLen n.toNat) with
  | false => obtain ⟨f, hf, _⟩ := newFrame_ok data remote htests; rw [hf] at h; cases h
  | true => rw [newFrame_error data remote htests] at h; cases h; exact FaultCode.noConfusion

/-- Each of the prescaler's three refusals has its own code (R161). -/
theorem faultsNamed_prescaler (clock baud : Word) : FaultsNamed (prescaler clock baud) := by
  intro x h
  unfold prescaler at h
  split_ifs at h <;> cases h <;> exact FaultCode.noConfusion

/-! Acceptance (R93): the four kinds of command part there are. -/

/-- A reserved opcode's part is fault entry and nothing else (R110). -/
theorem faultsOnlyByRaise_raise {x : FaultRaise} (hx : x.code ≠ .none) : FaultsOnlyByRaise (raise x) :=
  fun _ => .inr ⟨x, hx, rfl⟩

/-- A pure command completes or enters the fault of its operands (R10). -/
theorem faultsOnlyByRaise_finish {r : Except FaultRaise Result} (hr : FaultsNamed r) :
    FaultsOnlyByRaise (finish r) := by
  cases r with
  | ok v => exact fun _ => .inl rfl
  | error x => exact faultsOnlyByRaise_raise (hr x rfl)

/-- CONFIGURE is refused before it latches its prescaler, by SequenceError or by the prescaler's fault (R171). -/
theorem faultsOnlyByRaise_acceptConfigure (clock baud : Word) : FaultsOnlyByRaise (acceptConfigure clock baud) := by
  intro s
  unfold acceptConfigure
  split
  · exact .inr ⟨_, FaultCode.noConfusion, rfl⟩
  · split
    next x hx => exact .inr ⟨x, faultsNamed_prescaler clock baud x hx, rfl⟩
    next => exact .inl rfl

/-- TRANSMIT is refused before it latches its frame, by SequenceError or by the frame-operand check (R191). -/
theorem faultsOnlyByRaise_acceptTransmit (f : RawFrame) : FaultsOnlyByRaise (acceptTransmit f) := by
  intro s
  unfold acceptTransmit
  split
  · split
    next x hx => exact .inr ⟨x, faultsNamed_checkFrame f x hx, rfl⟩
    next => exact .inl rfl
  · exact .inr ⟨_, FaultCode.noConfusion, rfl⟩

/-- Acceptance raises a fault only in a ready block, and then leaves what fault entry leaves (R93, R229, R230). -/
theorem accept_preciseFault {body : State → State} (hbody : FaultsOnlyByRaise body) {s t : State}
    (h : accept body s = .next t) : PreciseFault s t := by
  intro hs ht
  rcases accept_next h with ⟨hcan, rfl⟩ | ⟨_, rfl⟩
  · rcases hbody { s with busy := true, cmd := none, result := none } with hkeep | ⟨x, hx, hraise⟩
    · exact absurd (hkeep.symm.trans ht) (by simp [hs])
    · rw [hraise]
      exact ⟨(canAccept_iff s).mp hcan, hx, rfl⟩
  · exact absurd (hs.symm.trans ht) Bool.false_ne_true

/-- Every command faults precisely (R229). -/
theorem exec_preciseFault {i : Instr} {s t : State} (h : exec i s = .next t) : PreciseFault s t := by
  cases i with
  | frameNew id n data remote extended =>
    exact accept_preciseFault
      (faultsOnlyByRaise_finish (faultsNamed_map _ (faultsNamed_newFrame id n data remote extended))) h
  | frameId f | frameIsExtended f | frameIsRtr f | frameData f | serialize f =>
    exact accept_preciseFault (faultsOnlyByRaise_finish (faultsNamed_map _ (faultsNamed_checkFrame f))) h
  | btrEncode clock baud =>
    exact accept_preciseFault (faultsOnlyByRaise_finish (faultsNamed_map _ (faultsNamed_prescaler clock baud))) h
  | configure clock baud => exact accept_preciseFault (faultsOnlyByRaise_acceptConfigure clock baud) h
  | transmit f => exact accept_preciseFault (faultsOnlyByRaise_acceptTransmit f) h

/-- What the step from IDLE can do (R93, R110): nothing, a command, or a reserved opcode. -/
theorem stepIdle_next {s t : State} (h : stepIdle s = .next t) :
    t = s ∨ (∃ i, exec i s = .next t) ∨ ∃ op, execReserved op s = .next t := by
  unfold stepIdle at h
  split at h
  · injection h with h
    exact .inl h.symm
  · split at h
    next i _ => exact .inr (.inl ⟨i, h⟩)
    next op _ => exact .inr (.inr ⟨op, h⟩)

/-- The step from IDLE faults precisely, for a reserved opcode too (R224, R229). -/
theorem stepIdle_preciseFault {s t : State} (h : stepIdle s = .next t) : PreciseFault s t := by
  rcases stepIdle_next h with rfl | ⟨i, hi⟩ | ⟨op, hop⟩
  · exact fun hs ht => absurd (hs.symm.trans ht) Bool.false_ne_true
  · exact exec_preciseFault hi
  · exact accept_preciseFault (faultsOnlyByRaise_raise FaultCode.noConfusion) hop

/-! The later phases (R27): each is one external action, after which the block's own part keeps the fault fields. -/

/-- A bus write is no source of faults of the block (R68). -/
theorem memWrite_faultEntry {r : Reg} {v : Word} {k : State → State} {s t : State}
    (h : memWrite (regAddress r) v s (fun u => .next (k u)) = .next t)
    (hk : ∀ u, faultEntry (k u) = faultEntry u) : faultEntry t = faultEntry s := by
  obtain ⟨_, p, _, ht⟩ := memWrite_next h
  injection ht with ht
  rw [← ht]
  exact hk _

/-- The mailbox selection ends in a mailbox or in DROPPED, not in a fault (R194, R196). -/
theorem faultEntry_choose (v : Word) (s : State) : faultEntry (choose v s) = faultEntry s := by
  unfold choose
  split <;> rfl

/-- A command that has left its acceptance step cannot fault (R229). -/
theorem seqStep_faultEntry {s t : State} (hph : s.ph ≠ .idle) (h : seqStep s = .next t) :
    faultEntry t = faultEntry s := by
  unfold seqStep at h
  cases hp : s.ph <;> simp only [hp] at h
  case idle => exact absurd hp hph
  case halt =>
    injection h with h
    rw [h]
  case cfEn | cfRstA | cfRstD =>
    injection h with h
    rw [← h]
    rfl
  case cfWakeRd | cfInitRd | cfExitRd =>
    obtain ⟨_, rfl⟩ := latchMcr_next h
    rfl
  case cfWakeWr | cfInitWr | cfExitWr =>
    obtain ⟨_, rfl⟩ := storeMcr_next h
    rfl
  case cfWakePoll | cfInitPoll =>
    obtain ⟨_, rfl⟩ := pollMsr_next h
    rfl
  case cfExitPoll =>
    obtain ⟨_, rfl⟩ := stepCfExitPoll_next h
    split <;> rfl
  case txTsrRd =>
    obtain ⟨_, rfl⟩ := stepTxTsrRd_next h
    exact faultEntry_choose _ _
  case cfBtrWr | txDlcWr | txIdWr | txDlWr | txDhWr | txRqWr => exact memWrite_faultEntry h fun _ => rfl

/-- Every step of SEQ faults precisely (R229). -/
theorem seqStep_preciseFault {s t : State} (h : seqStep s = .next t) : PreciseFault s t := by
  by_cases hph : s.ph = .idle
  · rw [seqStep, hph] at h
    exact stepIdle_preciseFault h
  · intro hs ht
    have hkeep : t.fault = s.fault := congrArg Prod.fst (seqStep_faultEntry hph h)
    exact absurd (hs.symm.trans (hkeep.symm.trans ht)) Bool.false_ne_true

/-- Settles O44: acceptance is the only step that raises a fault, and what it raises is fault entry alone. -/
theorem faultsAreEarlyAndPrecise : Obligations.FaultsAreEarlyAndPrecise := by
  refine ⟨fun _ _ _ => exec_preciseFault, fun _ _ => seqStep_preciseFault, fun s t hph h => ?_⟩
  have hkeep := seqStep_faultEntry hph h
  simpa only [faultEntry, Prod.mk.injEq] using hkeep

end Sys2Proof.Proofs

/-! Encoding (R91, R110; packing: log 1): the fields of each format read back from its packing, and the packing of the
fields read from a record is the record, cut to the bits of the format. -/

namespace Sys2Proof.Proofs

open Sys2Proof.Laws

/-! Reading the fields of a packed record. -/

/-- The operand fields of a CMD-F record (R91). -/
theorem recordFrame_packF (op : BitVec 4) (f : RawFrame) : recordFrame (packF op f) = f := by
  simp only [recordFrame, recordPayload, recordByte, recordWord, Nat.reduceAdd]
  simp (disch := decide) only [packF, packPayload, BitVec.extractLsb'_setWidth_of_le,
    BitVec.extractLsb'_append_eq_of_le, BitVec.extractLsb'_append_eq_of_add_le, BitVec.extractLsb'_eq_self,
    BitVec.getLsbD_append, BitVec.getLsbD_setWidth, BitVec.getLsbD_ofBool, Nat.reduceSub, Nat.reduceLT, if_false,
    if_true, decide_true, Bool.true_and]

/-- The operand fields of a CMD-T record (R91). -/
theorem recordWords_packT (op : BitVec 4) (clock baud : Word) :
    recordWord (packT op clock baud) 4 = clock ∧ recordWord (packT op clock baud) 36 = baud := by
  simp (disch := decide) only [recordWord, packT, BitVec.extractLsb'_setWidth_of_le,
    BitVec.extractLsb'_append_eq_of_le, BitVec.extractLsb'_append_eq_of_add_le, BitVec.extractLsb'_eq_self,
    Nat.reduceSub, and_self]

/-- The two words of a CMD-N record (R91). -/
theorem recordWords_packN (op : BitVec 4) (id n : Word) (data : Payload) (remote extended : Bool) :
    recordWord (packN op id n data remote extended) 4 = id ∧
      recordWord (packN op id n data remote extended) 36 = n := by
  simp (disch := decide) only [recordWord, packN, BitVec.extractLsb'_append_eq_of_le,
    BitVec.extractLsb'_append_eq_of_add_le, BitVec.extractLsb'_eq_self, Nat.reduceSub, and_self]

/-- The byte lanes of a CMD-N record (R91). -/
theorem recordPayload_packN (op : BitVec 4) (id n : Word) (data : Payload) (remote extended : Bool) :
    recordPayload (packN op id n data remote extended) 68 = data := by
  simp only [recordPayload, recordByte, Nat.reduceAdd]
  simp (disch := decide) only [packN, packPayload, BitVec.extractLsb'_append_eq_of_le,
    BitVec.extractLsb'_append_eq_of_add_le, BitVec.extractLsb'_eq_self, Nat.reduceSub]

/-- The two flags of a CMD-N record (R91). -/
theorem getLsbD_packN (op : BitVec 4) (id n : Word) (data : Payload) (remote extended : Bool) :
    (packN op id n data remote extended).getLsbD 132 = remote ∧
      (packN op id n data remote extended).getLsbD 133 = extended := by
  simp only [packN, BitVec.getLsbD_append, BitVec.getLsbD_ofBool, Nat.reduceSub, Nat.reduceLT, if_false, if_true,
    decide_true, Bool.true_and, and_self]

/-- Settles O1, format by format. -/
theorem decodeInvertsEncode : Obligations.DecodeInvertsEncode := by
  intro i
  cases i with
  | frameNew id n data remote extended =>
    rw [decode, (OpcodeRow.frameNew id n data remote extended).1]
    simp only [encode, opcode, recordWords_packN, recordPayload_packN, getLsbD_packN, BitVec.toNat_ofNat, Nat.reducePow,
      Nat.reduceMod]
  | frameId f | frameIsExtended f | frameIsRtr f | frameData f | serialize f | transmit f =>
    rw [decode, encode, OpcodeRow.recordOp_packF, recordFrame_packF]
    simp [opcode]
  | btrEncode clock baud | configure clock baud =>
    rw [decode, encode, OpcodeRow.recordOp_packT]
    simp [opcode, recordWords_packT]

/-! Packing the fields read from a record. -/

/-- A flag is its one-bit field. -/
theorem ofBool_getLsbD {w : Nat} (r : BitVec w) (k : Nat) : BitVec.ofBool (r.getLsbD k) = r.extractLsb' k 1 := by
  refine BitVec.eq_of_getLsbD_eq fun i hi => ?_
  have hzero : i = 0 := by omega
  subst hzero
  simp

/-- Eight byte lanes are one field of 64 bits (R91). -/
theorem packPayload_recordPayload (r : CmdRecord) (k : Nat) :
    packPayload (recordPayload r k) = r.extractLsb' k 64 := by
  simp (disch := omega) only [packPayload, recordPayload, recordByte,
    BitVec.extractLsb'_append_extractLsb'_eq_extractLsb']

/-- The CMD-F fields of a record fill its low 106 bits (R91). -/
theorem packF_recordFrame (r : CmdRecord) :
    packF (recordOp r) (recordFrame r) = (r.extractLsb' 0 106).setWidth 134 := by
  simp (disch := omega) only [packF, recordFrame, packPayload_recordPayload, ofBool_getLsbD, recordWord, recordOp,
    BitVec.extractLsb'_append_extractLsb'_eq_extractLsb']

/-- The CMD-T fields of a record fill its low 68 bits (R91). -/
theorem packT_recordWords (r : CmdRecord) :
    packT (recordOp r) (recordWord r 4) (recordWord r 36) = (r.extractLsb' 0 68).setWidth 134 := by
  simp (disch := omega) only [packT, recordWord, recordOp, BitVec.extractLsb'_append_extractLsb'_eq_extractLsb']

/-- The CMD-N fields of a record fill all its 134 bits (R91). -/
theorem packN_recordFields (r : CmdRecord) :
    packN (recordOp r) (recordWord r 4) (recordWord r 36) (recordPayload r 68) (r.getLsbD 132) (r.getLsbD 133) =
      (r.extractLsb' 0 134).setWidth 134 := by
  simp (disch := omega) only [packN, packPayload_recordPayload, ofBool_getLsbD, recordWord, recordOp,
    BitVec.extractLsb'_append_extractLsb'_eq_extractLsb']
  rw [BitVec.setWidth_eq]

/-- A record that decodes is, cut to the bits of its format, the encoding of its command (R91, R111). -/
theorem encode_of_decode {r : CmdRecord} {i : Instr} (h : decode r = .ok i) :
    encode i = (r.extractLsb' 0 (formatWidth i)).setWidth 134 := by
  have hop (op : BitVec 4) (hr : (recordOp r).toNat = op.toNat) : op = recordOp r := (BitVec.eq_of_toNat_eq hr).symm
  unfold decode at h
  split at h <;> cases h
  case h_1 hr => simp only [encode, opcode, formatWidth, hop 1#4 hr, packN_recordFields]
  case h_2 hr => simp only [encode, opcode, formatWidth, hop 2#4 hr, packF_recordFrame]
  case h_3 hr => simp only [encode, opcode, formatWidth, hop 3#4 hr, packF_recordFrame]
  case h_4 hr => simp only [encode, opcode, formatWidth, hop 4#4 hr, packF_recordFrame]
  case h_5 hr => simp only [encode, opcode, formatWidth, hop 5#4 hr, packF_recordFrame]
  case h_6 hr => simp only [encode, opcode, formatWidth, hop 6#4 hr, packF_recordFrame]
  case h_7 hr => simp only [encode, opcode, formatWidth, hop 7#4 hr, packT_recordWords]
  case h_8 hr => simp only [encode, opcode, formatWidth, hop 8#4 hr, packT_recordWords]
  case h_9 hr => simp only [encode, opcode, formatWidth, hop 9#4 hr, packF_recordFrame]

/-- No format is wider than the record (R91). -/
theorem formatWidth_le (i : Instr) : formatWidth i ≤ 134 := by cases i <;> simp [formatWidth]

/-- Settles O2: below the width of the format no bit is cut off. -/
theorem encodeInvertsDecode : Obligations.EncodeInvertsDecode := by
  intro r i h k hk
  have hrecord : k < 134 := hk.trans_le (formatWidth_le i)
  rw [encode_of_decode h, BitVec.getLsbD_setWidth, BitVec.getLsbD_extractLsb', Nat.zero_add, decide_eq_true hk,
    decide_eq_true hrecord, Bool.true_and, Bool.true_and]

/-- Settles O3, by running the decoder on each record. -/
theorem sampleRecordsDecode : Obligations.SampleRecordsDecode := by
  unfold Obligations.SampleRecordsDecode
  decide

/-- The decoder on the reserved opcodes (R110). -/
theorem decode_reserved {r : CmdRecord} (h : recordOp r = 0x0#4 ∨ 0xA ≤ (recordOp r).toNat) :
    decode r = .error (.reservedOpcode (recordOp r)) := by
  have hop : (recordOp r).toNat = 0 ∨ 0xA ≤ (recordOp r).toNat := h.imp (congrArg BitVec.toNat) id
  unfold decode
  split
  case h_10 => rfl
  all_goals omega

/-- The decoder on the nine opcodes of the map (R91). -/
theorem decode_defined {r : CmdRecord} (h : 1 ≤ (recordOp r).toNat ∧ (recordOp r).toNat ≤ 9) :
    ∃ i, decode r = .ok i := by
  obtain ⟨hlow, hhigh⟩ := h
  unfold decode
  generalize (recordOp r).toNat = n at hlow hhigh
  interval_cases n <;> exact ⟨_, rfl⟩

/-- The two ranges divide the sixteen opcodes (R91, R110). -/
theorem reserved_iff_not_defined (op : BitVec 4) :
    (op = 0x0#4 ∨ 0xA ≤ op.toNat) ↔ ¬ (1 ≤ op.toNat ∧ op.toNat ≤ 9) := by
  rw [← BitVec.toNat_inj, BitVec.toNat_ofNat]
  omega

/-- Settles O4: the two ranges divide the opcodes, and the decoder answers differently on them. -/
theorem reservedOpcodesRejected : Obligations.ReservedOpcodesRejected := by
  intro r
  rw [reserved_iff_not_defined]
  by_cases hdef : 1 ≤ (recordOp r).toNat ∧ (recordOp r).toNat ≤ 9
  · obtain ⟨i, hi⟩ := decode_defined hdef
    refine ⟨iff_of_false (fun herror => ?_) (not_not_intro hdef), iff_of_true ⟨i, hi⟩ hdef⟩
    rw [hi] at herror
    cases herror
  · have herror := decode_reserved ((reserved_iff_not_defined _).mpr hdef)
    refine ⟨iff_of_true herror hdef, iff_of_false (fun ⟨i, hi⟩ => ?_) hdef⟩
    rw [hi] at herror
    cases herror

end Sys2Proof.Proofs

/-! The later steps of a command (R26, R27) as a relation: every step of SEQ from a phase other than IDLE is one of
these, and each of these is a step. Later proofs argue by cases on the relation and do not unfold the phases again. -/

namespace Sys2Proof.Proofs

open Sys2Proof.Machine Sys2Proof.Safety Sys2Proof.Laws

/-- The phases that read MCR into the latch, and where they lead (R173). -/
inductive McrRead : Phase → Phase → Prop where
  | wake : McrRead .cfWakeRd .cfWakeWr
  | init : McrRead .cfInitRd .cfInitWr
  | exit : McrRead .cfExitRd .cfExitWr

/-- The phases that write the latch `v` back with one bit changed, where they lead, and the word written (R173,
R106). -/
inductive McrWrite (v : Word) : Phase → Phase → Word → Prop where
  | wake : McrWrite v .cfWakeWr .cfWakePoll (wakeWord v)
  | init : McrWrite v .cfInitWr .cfInitPoll (initWord v)
  | exit : McrWrite v .cfExitWr .cfExitPoll (exitWord v)

/-- The polls that leave CONFIGURE running, on the value read (R175, R107). -/
inductive Poll (msr : Word) : Phase → Phase → Prop where
  | wakeAgain (h : wakeDone msr = false) : Poll msr .cfWakePoll .cfWakePoll
  | wakeExit (h : wakeDone msr = true) : Poll msr .cfWakePoll .cfInitRd
  | initAgain (h : Machine.initEntered msr = false) : Poll msr .cfInitPoll .cfInitPoll
  | initExit (h : Machine.initEntered msr = true) : Poll msr .cfInitPoll .cfBtrWr
  | exitAgain (h : initLeft msr = false) : Poll msr .cfExitPoll .cfExitPoll

/-- The four data writes of the frame `f` to mailbox `m`, which holds `b`: the phase, the next phase, the register, the
word, and what the mailbox holds afterwards (R197 to R200). -/
inductive DataWrite (f : RawFrame) (m : MailboxIndex) (b : Mailbox) : Phase → Phase → Reg → Word → Mailbox → Prop where
  | length : DataWrite f m b .txDlcWr .txIdWr (.tdt m) (tdtWord f) { b with tdt := tdtWord f }
  | identifier : DataWrite f m b .txIdWr .txDlWr (.ti m) (idWord f) { b with ti := idWord f }
  | low : DataWrite f m b .txDlWr .txDhWr (.tdl m) (tdlWord f) { b with tdl := tdlWord f }
  | high : DataWrite f m b .txDhWr .txRqWr (.tdh m) (tdhWord f) { b with tdh := tdhWord f }

/-- A step of SEQ from a phase other than IDLE (R26). -/
inductive PhaseStep (s : State) : State → Prop where
  | halted (hph : s.ph = .halt) : PhaseStep s s
  | enable (hph : s.ph = .cfEn) :
      PhaseStep s { s with bcEn := true, trace := .busCtl .en :: s.trace, ph := .cfRstA }
  | assertReset (hph : s.ph = .cfRstA) :
      PhaseStep s { s with
        bcRst := true, trace := .busCtl .rstAssert :: s.trace, ph := .cfRstD, periph := periphAfterReset s.draws,
        draws := s.draws + 12 }
  | deassertReset (hph : s.ph = .cfRstD) :
      PhaseStep s { s with bcRst := false, trace := .busCtl .rstDeassert :: s.trace, ph := .cfWakeRd }
  | readMcr {q : Phase} (hb : busReady s = true) (hq : McrRead s.ph q) :
      PhaseStep s { s with mcrv := s.periph.mcr, trace := .read .mcr s.periph.mcr :: s.trace, ph := q }
  | writeMcr {q : Phase} {v : Word} (hb : busReady s = true) (hq : McrWrite s.mcrv s.ph q v) :
      PhaseStep s { s with periph := { s.periph with mcr := v }, trace := .write .mcr v :: s.trace, ph := q }
  | poll {q : Phase} (hb : busReady s = true) (hq : Poll s.periph.msr s.ph q) :
      PhaseStep s { s with trace := .read .msr s.periph.msr :: s.trace, ph := q }
  | writeBtr (hb : busReady s = true) (hph : s.ph = .cfBtrWr) :
      PhaseStep s { s with
        periph := if fieldBit layout.inak s.periph.msr then { s.periph with btr := btrWord s.pre } else s.periph,
        trace := .write .btr (btrWord s.pre) :: s.trace, ph := .cfExitRd }
  | configured (hb : busReady s = true) (hph : s.ph = .cfExitPoll) (hleft : initLeft s.periph.msr = true) :
      PhaseStep s { s with
        trace := .read .msr s.periph.msr :: s.trace, cfg := true, result := some .unit, busy := false, ph := .idle }
  | selected {m : MailboxIndex} (hb : busReady s = true) (hph : s.ph = .txTsrRd)
      (hm : selectMailbox (tsrValue s.periph) = some m) :
      PhaseStep s { s with
        tsrv := tsrValue s.periph, trace := .read .tsr (tsrValue s.periph) :: s.trace, mb := m, ph := .txDlcWr }
  | dropped (hb : busReady s = true) (hph : s.ph = .txTsrRd) (hm : selectMailbox (tsrValue s.periph) = none) :
      PhaseStep s { s with
        tsrv := tsrValue s.periph, trace := .read .tsr (tsrValue s.periph) :: s.trace, lastTx := .dropped,
        result := some (.outcome .dropped), busy := false, ph := .idle }
  | dataWrite {q : Phase} {r : Reg} {v : Word} {b : Mailbox} (hb : busReady s = true)
      (he : (getBox s.periph s.mb).mbs = .empty) (hq : DataWrite s.fl s.mb (getBox s.periph s.mb) s.ph q r v b) :
      PhaseStep s { s with periph := setBox s.periph s.mb b, trace := .write r v :: s.trace, ph := q }
  | queued (hb : busReady s = true) (he : (getBox s.periph s.mb).mbs = .empty) (hph : s.ph = .txRqWr) :
      PhaseStep s { s with
        periph := setBox s.periph s.mb { getBox s.periph s.mb with ti := requestWord s.fl, mbs := .pending },
        trace := .write (.ti s.mb) (requestWord s.fl) :: s.trace, lastTx := .queued s.mb,
        result := some (.outcome (.queued s.mb)), busy := false, ph := .idle }

/-- Writing the identifier word leaves an Empty mailbox Empty (R51, R198). -/
theorem identifierWrite_box (f : RawFrame) {b : Mailbox} (he : b.mbs = .empty) :
    { b with ti := idWord f, mbs := if fieldBit layout.txrq (idWord f) then .pending else .empty } =
      { b with ti := idWord f } := by
  rw [txrq_idWord, if_neg Bool.false_ne_true, ← he]

/-- Writing the request word hands the mailbox over (R51, R201). -/
theorem requestWrite_box (f : RawFrame) (b : Mailbox) :
    { b with ti := requestWord f, mbs := if fieldBit layout.txrq (requestWord f) then .pending else .empty } =
      { b with ti := requestWord f, mbs := .pending } := by
  rw [txrq_requestWord, if_pos rfl]

/-- Every step of SEQ from a phase other than IDLE is one of the relation's. -/
theorem phaseStep_of_seqStep {s t : State} (hph : s.ph ≠ .idle) (h : seqStep s = .next t) : PhaseStep s t := by
  unfold seqStep at h
  cases hp : s.ph <;> simp only [hp] at h
  case idle => exact absurd hp hph
  case halt => injection h with h; exact h ▸ .halted hp
  case cfEn => injection h with h; exact h ▸ .enable hp
  case cfRstA => injection h with h; exact h ▸ .assertReset hp
  case cfRstD => injection h with h; exact h ▸ .deassertReset hp
  case cfWakeRd => obtain ⟨hb, rfl⟩ := latchMcr_next h; exact .readMcr hb (hp ▸ .wake)
  case cfInitRd => obtain ⟨hb, rfl⟩ := latchMcr_next h; exact .readMcr hb (hp ▸ .init)
  case cfExitRd => obtain ⟨hb, rfl⟩ := latchMcr_next h; exact .readMcr hb (hp ▸ .exit)
  case cfWakeWr => obtain ⟨hb, rfl⟩ := storeMcr_next h; exact .writeMcr hb (hp ▸ .wake)
  case cfInitWr => obtain ⟨hb, rfl⟩ := storeMcr_next h; exact .writeMcr hb (hp ▸ .init)
  case cfExitWr => obtain ⟨hb, rfl⟩ := storeMcr_next h; exact .writeMcr hb (hp ▸ .exit)
  case cfWakePoll =>
    obtain ⟨hb, rfl⟩ := stepCfWakePoll_next h
    cases hd : wakeDone s.periph.msr
    · exact .poll hb (hp ▸ .wakeAgain hd)
    · exact .poll hb (hp ▸ .wakeExit hd)
  case cfInitPoll =>
    obtain ⟨hb, rfl⟩ := stepCfInitPoll_next h
    cases hd : Machine.initEntered s.periph.msr
    · exact .poll hb (hp ▸ .initAgain hd)
    · exact .poll hb (hp ▸ .initExit hd)
  case cfExitPoll =>
    obtain ⟨hb, rfl⟩ := stepCfExitPoll_next h
    cases hd : initLeft s.periph.msr
    · exact .poll hb (hp ▸ .exitAgain hd)
    · exact .configured hb hp hd
  case cfBtrWr => obtain ⟨hb, rfl⟩ := stepCfBtrWr_next h; exact .writeBtr hb hp
  case txTsrRd =>
    obtain ⟨hb, rfl⟩ := stepTxTsrRd_next h
    unfold choose
    split
    next hm => exact .dropped hb hp hm
    next m hm => exact .selected hb hp hm
  case txDlcWr => obtain ⟨hb, he, rfl⟩ := stepTxDlcWr_next h; exact .dataWrite hb he (hp ▸ .length)
  case txIdWr =>
    obtain ⟨hb, he, rfl⟩ := stepTxIdWr_next h
    rw [identifierWrite_box s.fl he]
    exact .dataWrite hb he (hp ▸ .identifier)
  case txDlWr => obtain ⟨hb, he, rfl⟩ := stepTxDlWr_next h; exact .dataWrite hb he (hp ▸ .low)
  case txDhWr => obtain ⟨hb, he, rfl⟩ := stepTxDhWr_next h; exact .dataWrite hb he (hp ▸ .high)
  case txRqWr =>
    obtain ⟨hb, he, rfl⟩ := stepTxRqWr_next h
    rw [requestWrite_box]
    exact .queued hb he hp

/-- A step that reads MCR (R173). -/
theorem seqStep_readMcr {s : State} {q : Phase} (h : McrRead s.ph q) : seqStep s = latchMcr q s := by
  unfold seqStep
  generalize s.ph = p at h
  cases h <;> rfl

/-- A step that writes MCR (R173). -/
theorem seqStep_writeMcr {s : State} {q : Phase} {v : Word} (h : McrWrite s.mcrv s.ph q v) :
    seqStep s = storeMcr v q s := by
  unfold seqStep
  generalize s.ph = p at h
  cases h <;> rfl

/-- A poll on a ready bus (R175). -/
theorem pollMsr_ready (k : Word → State → State) {s : State} (hb : busReady s = true) :
    pollMsr k s = .next (k s.periph.msr (note (.read .msr s.periph.msr) s)) :=
  (pollMsr_eq k s).trans (memRead_ready .msr s _ hb)

/-- A poll that leaves CONFIGURE running (R175, R107). -/
theorem seqStep_poll {s : State} {q : Phase} (hb : busReady s = true) (h : Poll s.periph.msr s.ph q) :
    seqStep s = .next { s with trace := .read .msr s.periph.msr :: s.trace, ph := q } := by
  unfold seqStep
  generalize s.ph = p at h
  cases h with
  | wakeAgain hd | wakeExit hd | initAgain hd | initExit hd | exitAgain hd =>
    exact (pollMsr_ready _ hb).trans (by rw [hd]; rfl)

/-- A step that writes one word of the frame (R197 to R200). -/
theorem seqStep_dataWrite {s : State} {q : Phase} {r : Reg} {v : Word} {b : Mailbox} (hb : busReady s = true)
    (he : (getBox s.periph s.mb).mbs = .empty)
    (h : DataWrite s.fl s.mb (getBox s.periph s.mb) s.ph q r v b) :
    seqStep s = .next { s with periph := setBox s.periph s.mb b, trace := .write r v :: s.trace, ph := q } := by
  unfold seqStep
  generalize s.ph = p at h
  cases h with
  | length => exact memWrite_box _ hb rfl he
  | identifier => exact (memWrite_box _ hb rfl he).trans (by rw [identifierWrite_box s.fl he]; rfl)
  | low => exact memWrite_box _ hb rfl he
  | high => exact memWrite_box _ hb rfl he

/-- Each of the relation's steps is the step of SEQ. -/
theorem PhaseStep.seqStep_eq {s t : State} (h : PhaseStep s t) : seqStep s = .next t := by
  cases h with
  | halted hph => rw [seqStep, hph]
  | enable hph | assertReset hph | deassertReset hph => rw [seqStep, hph]; rfl
  | readMcr hb hq => exact (seqStep_readMcr hq).trans (memRead_ready .mcr s _ hb)
  | writeMcr hb hq => exact (seqStep_writeMcr hq).trans (memWrite_ready .mcr _ s _ _ hb rfl)
  | poll hb hq => exact seqStep_poll hb hq
  | writeBtr hb hph => rw [seqStep, hph]; exact memWrite_ready .btr _ s _ _ hb rfl
  | configured hb hph hleft => rw [seqStep, hph]; exact (pollMsr_ready _ hb).trans (by rw [hleft]; rfl)
  | selected hb hph hm => rw [seqStep, hph]; exact (memRead_ready .tsr s _ hb).trans (by rw [choose, readReg, hm]; rfl)
  | dropped hb hph hm => rw [seqStep, hph]; exact (memRead_ready .tsr s _ hb).trans (by rw [choose, readReg, hm]; rfl)
  | dataWrite hb he hq => exact seqStep_dataWrite hb he hq
  | queued hb he hph =>
    rw [seqStep, hph]
    exact (memWrite_box _ hb rfl he).trans (by rw [requestWrite_box]; rfl)

end Sys2Proof.Proofs

/-! The moves of PERIPH (R50 to R56): what one can do to MCR and BTR, to the two acknowledge bits, and to a mailbox. -/

namespace Sys2Proof.Proofs

open Sys2Proof.Machine Sys2Proof.Safety Sys2Proof.Laws

/-- No move of PERIPH changes MCR (D24). -/
@[simp] theorem periphMove_mcr (m : PeriphMove) (p : Periph) : (periphMove m p).mcr = p.mcr := by
  cases m with
  | complete k o a b c d => exact completeBox_mcr k o a b c d p
  | stamp k time => exact (stamp_registers p k time).1
  | drift msr tsr => rfl
  | ackWake | ackInit | ackExit => simp only [periphMove]; split <;> rfl

/-- `Complete(m)` leaves BTR alone (R52). -/
theorem completeBox_btr (m : MailboxIndex) (o : BitVec 4) (a b c d : Word) (p : Periph) :
    (completeBox m o a b c d p).btr = p.btr := by
  unfold completeBox
  split <;> simp

/-- No move of PERIPH changes BTR (D24). -/
theorem periphMove_btr (m : PeriphMove) (p : Periph) : (periphMove m p).btr = p.btr := by
  cases m with
  | complete k o a b c d => exact completeBox_btr k o a b c d p
  | stamp k time => exact (stamp_registers p k time).2.2.2
  | drift msr tsr => rfl
  | ackWake | ackInit | ackExit => simp only [periphMove]; split <;> rfl

/-- A drift keeps the acknowledge bits of MSR (U9, R53, R54). -/
theorem fieldBit_drift (f : Field) (old new : Word) (h : ackMask.getLsbD f.lsb = true) :
    fieldBit f ((old &&& ackMask) ||| (new &&& ~~~ ackMask)) = fieldBit f old := by
  simp [fieldBit, h]

/-- SLAK stays as it is, or falls while SLEEP is 0 (R53). -/
theorem slak_periphMove (m : PeriphMove) (p : Periph) :
    fieldBit layout.slak (periphMove m p).msr = fieldBit layout.slak p.msr ∨
      fieldBit layout.sleep p.mcr = false ∧ fieldBit layout.slak (periphMove m p).msr = false := by
  cases m with
  | complete k o a b c d => exact .inl (congrArg _ (completeBox_msr k o a b c d p))
  | stamp k time => exact .inl (congrArg _ (stamp_registers p k time).2.1)
  | drift msr tsr => exact .inl (fieldBit_drift _ _ _ (by decide))
  | ackWake =>
    simp only [periphMove]
    split
    next => exact .inl rfl
    next h => exact .inr ⟨Bool.eq_false_iff.mpr h, fieldBit_fieldClear_same _ _ (by decide) (by decide)⟩
  | ackInit =>
    simp only [periphMove]
    split
    next => exact .inl (fieldBit_fieldSet_other _ _ _ (by decide))
    next => exact .inl rfl
  | ackExit =>
    simp only [periphMove]
    split
    next => exact .inl rfl
    next => exact .inl (fieldBit_fieldClear_other _ _ _ (by decide))

/-- INAK stays as it is, or takes the value of INRQ (R54). -/
theorem inak_periphMove (m : PeriphMove) (p : Periph) :
    fieldBit layout.inak (periphMove m p).msr = fieldBit layout.inak p.msr ∨
      fieldBit layout.inak (periphMove m p).msr = fieldBit layout.inrq p.mcr := by
  cases m with
  | complete k o a b c d => exact .inl (congrArg _ (completeBox_msr k o a b c d p))
  | stamp k time => exact .inl (congrArg _ (stamp_registers p k time).2.1)
  | drift msr tsr => exact .inl (fieldBit_drift _ _ _ (by decide))
  | ackWake =>
    simp only [periphMove]
    split
    next => exact .inl rfl
    next => exact .inl (fieldBit_fieldClear_other _ _ _ (by decide))
  | ackInit =>
    simp only [periphMove]
    split
    next h => exact .inr ((fieldBit_fieldSet_same _ _ (by decide) (by decide)).trans h.symm)
    next => exact .inl rfl
  | ackExit =>
    simp only [periphMove]
    split
    next => exact .inl rfl
    next h => exact .inr ((fieldBit_fieldClear_same _ _ (by decide) (by decide)).trans (Bool.eq_false_iff.mpr h).symm)

/-- The wake acknowledge (R53). -/
theorem slak_ackWake {p : Periph} (h : fieldBit layout.sleep p.mcr = false) :
    fieldBit layout.slak (periphMove .ackWake p).msr = false := by
  rw [periphMove, h, if_neg Bool.false_ne_true]
  exact fieldBit_fieldClear_same _ _ (by decide) (by decide)

/-- The initialization-entry acknowledge (R54). -/
theorem inak_ackInit {p : Periph} (h : fieldBit layout.inrq p.mcr = true) :
    fieldBit layout.inak (periphMove .ackInit p).msr = true := by
  rw [periphMove, h, if_pos rfl]
  exact fieldBit_fieldSet_same _ _ (by decide) (by decide)

/-- The initialization-exit acknowledge (R54). -/
theorem inak_ackExit {p : Periph} (h : fieldBit layout.inrq p.mcr = false) :
    fieldBit layout.inak (periphMove .ackExit p).msr = false := by
  rw [periphMove, h, if_neg Bool.false_ne_true]
  exact fieldBit_fieldClear_same _ _ (by decide) (by decide)

/-- Settles O55: SLAK stays or falls under SLEEP = 0, and INAK stays or follows INRQ. -/
theorem acknowledgesFollowRequests : Obligations.AcknowledgesFollowRequests := by
  refine ⟨fun m p => ⟨periphMove_mcr m p, periphMove_btr m p, fun hslak => ?_, fun hsleep => ?_, fun hinrq => ?_⟩,
    fun p => ⟨slak_ackWake, inak_ackInit, inak_ackExit⟩⟩
  · rcases slak_periphMove m p with hkeep | ⟨_, hfall⟩
    · exact hkeep.symm.trans hslak
    · exact absurd (hslak.symm.trans hfall) Bool.noConfusion
  · rcases slak_periphMove m p with hkeep | ⟨hclear, _⟩
    · exact hkeep
    · exact absurd (hsleep.symm.trans hclear) Bool.noConfusion
  · rcases inak_periphMove m p with hkeep | hfollow
    · exact hkeep
    · exact hfollow.trans hinrq

/-! The mailboxes. -/

/-- What `Complete(m)` of a Pending mailbox does to each of the three (R52). -/
theorem getBox_completeBox {p : Periph} {m : MailboxIndex} (hp : (getBox p m).mbs = .pending) (k : MailboxIndex)
    (o : BitVec 4) (a b c d : Word) :
    getBox (completeBox m o a b c d p) k =
      if k = m then ⟨fieldClear layout.txrq a, b, c, d, .empty⟩ else getBox p k := by
  rw [completeBox, if_pos hp, getBox_setBox, getBox_tsr]

/-- `Complete(m)` of a mailbox that is not Pending is no step (R52). -/
theorem completeBox_of_ne {p : Periph} {m : MailboxIndex} (hp : (getBox p m).mbs ≠ .pending) (o : BitVec 4)
    (a b c d : Word) : completeBox m o a b c d p = p := if_neg hp

/-- What a move of PERIPH can do to a mailbox: nothing, complete it while it is Pending, or stamp it (R45, R52). -/
theorem getBox_periphMove (m : PeriphMove) (p : Periph) (k : MailboxIndex) :
    getBox (periphMove m p) k = getBox p k ∨
      (∃ o a b c d, m = .complete k o a b c d ∧ (getBox p k).mbs = .pending ∧
        getBox (periphMove m p) k = ⟨fieldClear layout.txrq a, b, c, d, .empty⟩) ∨
      ∃ time, m = .stamp k time := by
  cases m with
  | complete j o a b c d =>
    by_cases hp : (getBox p j).mbs = .pending
    · have hbox := getBox_completeBox hp k o a b c d
      by_cases hk : k = j
      · subst hk
        rw [if_pos rfl] at hbox
        exact .inr (.inl ⟨o, a, b, c, d, rfl, hp, hbox⟩)
      · rw [if_neg hk] at hbox
        exact .inl hbox
    · exact .inl (congrArg (getBox · k) (completeBox_of_ne hp o a b c d))
  | stamp j time =>
    by_cases hk : k = j
    · exact .inr (.inr ⟨time, hk ▸ rfl⟩)
    · exact .inl ((getBox_stamp p j k time).trans (if_neg hk))
  | drift msr tsr => exact .inl ((getBox_tsr { p with msr := _ } tsr k).trans (getBox_msr p _ k))
  | ackWake | ackInit | ackExit =>
    simp only [periphMove]
    split <;> simp

/-- A move of PERIPH leaves a mailbox's identifier word and state alone, or completes it (R45, R52). -/
theorem getBox_periphMove_ti_mbs (m : PeriphMove) (p : Periph) (k : MailboxIndex) :
    (getBox (periphMove m p) k).ti = (getBox p k).ti ∧ (getBox (periphMove m p) k).mbs = (getBox p k).mbs ∨
      (∃ o a b c d, m = .complete k o a b c d) ∧ (getBox p k).mbs = .pending ∧
        fieldBit layout.txrq (getBox (periphMove m p) k).ti = false ∧ (getBox (periphMove m p) k).mbs = .empty := by
  rcases getBox_periphMove m p k with hkeep | ⟨o, a, b, c, d, hm, hp, hbox⟩ | ⟨time, hm⟩
  · exact .inl ⟨congrArg _ hkeep, congrArg _ hkeep⟩
  · rw [hbox]
    exact .inr ⟨⟨o, a, b, c, d, hm⟩, hp, fieldBit_fieldClear_same _ _ (by decide) (by decide), rfl⟩
  · rw [hm]
    exact .inl (stamp_ti_mbs p k k time)

/-- In TRANSMIT's window a turn of PERIPH leaves a mailbox as it is or completes it (R73). -/
theorem getBox_periphTurn_window (m : PeriphMove) (s : State) (k : MailboxIndex) (hw : writesMailbox s.ph = true) :
    getBox (periphTurn m s).periph k = getBox s.periph k ∨
      (getBox s.periph k).mbs = .pending ∧ ∃ o a b c d, m = .complete k o a b c d := by
  by_cases hm : periphEnabled m s.ph = true
  · rw [periphTurn_enabled hm]
    rcases getBox_periphMove m s.periph k with hkeep | ⟨o, a, b, c, d, hcomplete, hp, _⟩ | ⟨time, rfl⟩
    · exact .inl hkeep
    · exact .inr ⟨hp, o, a, b, c, d, hcomplete⟩
    · simp [periphEnabled, hw] at hm
  · exact .inl (congrArg (fun t : State => getBox t.periph k) (if_neg hm))

end Sys2Proof.Proofs

/-! The value of TSR and the mailbox selection (R50, R68, R108, R194). -/

namespace Sys2Proof.Proofs

open Sys2Proof.Machine Sys2Proof.Safety Sys2Proof.Laws

/-- `TMEm` stands at bit 26 + m (R42). -/
theorem emptyFlag_eq (tsr : Word) (m : MailboxIndex) : emptyFlag tsr m = tsr.getLsbD (26 + m.val) := rfl

/-- TMEm of the value read is 1 exactly when the mailbox is Empty (R50). -/
theorem emptyFlag_tsrValue (p : Periph) (m : MailboxIndex) :
    emptyFlag (tsrValue p) m = decide ((getBox p m).mbs = .empty) := by
  have hmask : (fieldMask layout.tme).getLsbD (26 + m.val) = true := by revert m; decide
  rw [emptyFlag_eq, tsrValue, BitVec.getLsbD_or, BitVec.getLsbD_or, BitVec.getLsbD_or, getLsbD_fieldClear, hmask,
    getLsbD_emptyWord, getLsbD_emptyWord, getLsbD_emptyWord]
  fin_cases m <;> simp

/-- Outside bits 28:26 an empty flag has no bit (R42). -/
theorem getLsbD_emptyWord_other (p : Periph) (m : MailboxIndex) {k : Nat} (hk : k < 26 ∨ 29 ≤ k) :
    (emptyWord p m).getLsbD k = false := by
  have hlsb : (fieldShift layout.tme m.val).lsb = 26 + m.val := rfl
  rw [emptyWord, getLsbD_fieldPut, hlsb]
  by_cases hlow : k < 26
  · simp [show ¬ 26 + m.val ≤ k by omega]
  · have hflag : (flagWord (decide ((getBox p m).mbs = .empty))).getLsbD (k - (26 + m.val)) = false := by
      have hpos : k - (26 + m.val) ≠ 0 := by omega
      cases decide ((getBox p m).mbs = .empty) <;> simp [flagWord, hpos]
    simp [hflag]

/-- The other bits of TSR read as stored (R68). -/
theorem getLsbD_tsrValue_other (p : Periph) {k : Nat} (hk : k < 26 ∨ 29 ≤ k) :
    (tsrValue p).getLsbD k = p.tsr.getLsbD k := by
  have hlsb : layout.tme.lsb = 26 := rfl
  have hwidth : layout.tme.width = 3 := rfl
  have hmask : (fieldMask layout.tme).getLsbD k = false := by
    rw [getLsbD_fieldMask, hlsb, hwidth]
    simp
    omega
  simp [tsrValue, getLsbD_fieldClear, getLsbD_emptyWord_other p _ hk, hmask]

/-- Settles O37, bit by bit. -/
theorem emptyFlagsFollowMailboxes : Obligations.EmptyFlagsFollowMailboxes := by
  refine fun p => ⟨fun m => ?_, fun k hk => getLsbD_tsrValue_other p hk⟩
  rw [← emptyFlag_eq, emptyFlag_tsrValue, decide_eq_true_iff]

/-- Settles O36: the three empty flags are bits 26, 27 and 28. -/
theorem mailboxSelection : Obligations.MailboxSelection := fun _ => rfl

/-- The mailbox selected is Empty (R194). -/
theorem emptyFlag_of_selectMailbox {tsr : Word} {m : MailboxIndex} (h : selectMailbox tsr = some m) :
    emptyFlag tsr m = true := by
  unfold selectMailbox at h
  split_ifs at h with h0 h1 h2 <;> cases h
  · exact h0
  · exact h1
  · exact h2

/-- The mailbox selected from the value read is Empty (R194). -/
theorem empty_of_selectMailbox {p : Periph} {m : MailboxIndex} (h : selectMailbox (tsrValue p) = some m) :
    (getBox p m).mbs = .empty := by
  have hflag := emptyFlag_of_selectMailbox h
  rwa [emptyFlag_tsrValue, decide_eq_true_iff] at hflag

/-- The lowest Empty mailbox is selected (R194). -/
theorem selectMailbox_lowest {p : Periph} {m : MailboxIndex} (he : (getBox p m).mbs = .empty)
    (hlow : ∀ k, k < m → (getBox p k).mbs = .pending) : selectMailbox (tsrValue p) = some m := by
  simp only [selectMailbox, emptyFlag_tsrValue]
  match m, he, hlow with
  | 0, he, _ => simp [he]
  | 1, he, hlow => simp [he, hlow 0 (by decide)]
  | 2, he, hlow => simp [he, hlow 0 (by decide), hlow 1 (by decide)]

/-- With every mailbox Pending none is selected (R196). -/
theorem selectMailbox_none {p : Periph} (hp : ∀ m, (getBox p m).mbs = .pending) :
    selectMailbox (tsrValue p) = none := by
  simp [selectMailbox, emptyFlag_tsrValue, hp]

end Sys2Proof.Proofs

/-! The invariant of the machine (R23, R40, R51 to R54, R57, R231, R236, R237), sorted by what its clauses speak of: the
mode transitions, the mailboxes, the class of the phase. Each step of SEQ stays in CONFIGURE, stays in TRANSMIT, or ends
in IDLE or HALT, and for each of these four what the new state has to meet is said once. -/

namespace Sys2Proof.Proofs

open Sys2Proof.Machine Sys2Proof.Safety Sys2Proof.Laws

/-! The classes of phases (R26) do not meet. -/

/-- A phase of CONFIGURE is neither HALT nor one of TRANSMIT. -/
theorem outside_of_inConfigure {p : Phase} (h : inConfigure p = true) :
    decide (p = .halt) = false ∧ inTransmit p = false ∧ writesMailbox p = false := by
  revert h
  cases p <;> decide

/-- A phase of TRANSMIT is neither HALT nor one of CONFIGURE. -/
theorem outside_of_inTransmit {p : Phase} (h : inTransmit p = true) :
    decide (p = .halt) = false ∧ inConfigure p = false := by
  revert h
  cases p <;> decide

/-- A phase outside CONFIGURE is not after its reset pulse (R172). -/
theorem afterPulse_of_not_inConfigure {p : Phase} (h : inConfigure p = false) : afterPulse p = false := by
  rw [afterPulse, h, Bool.false_and]

/-! The mode transitions (R53, R54, R173). -/

/-- What the invariant says of the mode transitions in phase `p`. -/
structure Modes (p : Phase) (mcrv mcr msr : Word) : Prop where
  latched : writesMcr p = true → mcrv = mcr
  sleepClear : wakeRequested p = true → fieldBit layout.sleep mcr = false
  slakClear : awake p = true → fieldBit layout.slak msr = false
  inrqSet : initRequested p = true → fieldBit layout.inrq mcr = true
  inakSet : Safety.initEntered p = true → fieldBit layout.inak msr = true
  inrqClear : p = .cfExitPoll → fieldBit layout.inrq mcr = false

/-- The invariant's clauses on the mode transitions. -/
theorem modes_of_invariant {s : State} (hi : Invariant s) : Modes s.ph s.mcrv s.periph.mcr s.periph.msr :=
  ⟨hi.latched, hi.sleepClear, hi.slakClear, hi.inrqSet, hi.inakSet, hi.inrqClear⟩

/-- Before the reset pulse and outside CONFIGURE nothing is said of the mode transitions (R172). -/
theorem modes_of_not_afterPulse {p : Phase} (h : afterPulse p = false) (mcrv mcr msr : Word) :
    Modes p mcrv mcr msr := by
  have hnone : writesMcr p = false ∧ wakeRequested p = false ∧ awake p = false ∧ initRequested p = false ∧
      Safety.initEntered p = false ∧ p ≠ .cfExitPoll := by
    revert h
    cases p <;> decide
  obtain ⟨hwrites, hwake, hawake, hreq, hent, hexit⟩ := hnone
  exact ⟨by simp [hwrites], by simp [hwake], by simp [hawake], by simp [hreq], by simp [hent],
    fun hp => absurd hp hexit⟩

/-- Reading MCR latches it as it is (R173). -/
theorem modes_readMcr {p q : Phase} {mcrv mcr msr : Word} (h : McrRead p q) (hm : Modes p mcrv mcr msr) :
    Modes q mcr mcr msr := by
  cases h with
  | wake => exact ⟨fun _ => rfl, nofun, nofun, nofun, nofun, nofun⟩
  | init => exact ⟨fun _ => rfl, hm.sleepClear, hm.slakClear, nofun, nofun, nofun⟩
  | exit => exact ⟨fun _ => rfl, hm.sleepClear, hm.slakClear, hm.inrqSet, hm.inakSet, nofun⟩

/-- The three request writes (R106, R173). -/
theorem modes_writeMcr {p q : Phase} {mcrv mcr msr v : Word} (h : McrWrite mcrv p q v) (hm : Modes p mcrv mcr msr) :
    Modes q mcrv v msr := by
  cases h with
  | wake => exact ⟨nofun, fun _ => sleep_wakeWord _, nofun, nofun, nofun, nofun⟩
  | init =>
    have hsleep : fieldBit layout.sleep mcrv = false := hm.latched rfl ▸ hm.sleepClear rfl
    exact ⟨nofun, fun _ => (sleep_initWord _).trans hsleep, hm.slakClear, fun _ => inrq_initWord _, nofun, nofun⟩
  | exit =>
    have hsleep : fieldBit layout.sleep mcrv = false := hm.latched rfl ▸ hm.sleepClear rfl
    exact ⟨nofun, fun _ => (sleep_exitWord _).trans hsleep, hm.slakClear, nofun, nofun, fun _ => inrq_exitWord _⟩

/-- The request writes keep the reserved bits of MCR at 0 (R40, R106). -/
theorem reserved_writeMcr {p q : Phase} {mcrv v : Word} (h : McrWrite mcrv p q v) (hr : mcrv &&& mcrReserved = 0#32) :
    v &&& mcrReserved = 0#32 := by
  cases h with
  | wake | exit => exact fieldClear_and_zero _ _ _ hr
  | init => exact fieldSet_and_zero _ _ _ (by decide) hr

/-- A poll that goes on has seen its acknowledge (R107, R175). -/
theorem modes_poll {p q : Phase} {mcrv mcr msr : Word} (h : Poll msr p q) (hm : Modes p mcrv mcr msr) :
    Modes q mcrv mcr msr := by
  cases h with
  | wakeAgain | initAgain | exitAgain => exact hm
  | wakeExit hd => exact ⟨nofun, hm.sleepClear, fun _ => (Bool.not_eq_true' _).mp hd, nofun, nofun, nofun⟩
  | initExit hd => exact ⟨nofun, hm.sleepClear, hm.slakClear, hm.inrqSet, fun _ => hd, nofun⟩

/-- The timing write moves no mode bit (R174). -/
theorem modes_writeBtr {mcrv mcr msr : Word} (hm : Modes .cfBtrWr mcrv mcr msr) : Modes .cfExitRd mcrv mcr msr :=
  ⟨nofun, hm.sleepClear, hm.slakClear, hm.inrqSet, hm.inakSet, nofun⟩

/-- A move of PERIPH keeps what the phase relies on: SLAK does not rise, and INAK stays while INRQ is 1 (R53, R54). -/
theorem modes_periphMove {q : Phase} {mcrv : Word} {p : Periph} (m : PeriphMove) (hm : Modes q mcrv p.mcr p.msr) :
    Modes q mcrv (periphMove m p).mcr (periphMove m p).msr := by
  have hmcr : (periphMove m p).mcr = p.mcr := periphMove_mcr m p
  have hrequested : Safety.initEntered q = true → initRequested q = true := by cases q <;> decide
  refine ⟨hmcr ▸ hm.latched, hmcr ▸ hm.sleepClear, fun ha => ?_, hmcr ▸ hm.inrqSet, fun he => ?_, hmcr ▸ hm.inrqClear⟩
  · rcases slak_periphMove m p with hkeep | ⟨_, hfall⟩
    · exact hkeep.trans (hm.slakClear ha)
    · exact hfall
  · rcases inak_periphMove m p with hkeep | hfollow
    · exact hkeep.trans (hm.inakSet he)
    · exact hfollow.trans (hm.inrqSet (hrequested he))

/-- A move of PERIPH keeps normal mode (R237). -/
theorem normal_periphMove {p : Periph} (m : PeriphMove) (hn : Normal p) : Normal (periphMove m p) := by
  have hmcr : (periphMove m p).mcr = p.mcr := periphMove_mcr m p
  refine ⟨hmcr ▸ hn.sleepClear, hmcr ▸ hn.inrqClear, ?_, ?_⟩
  · rcases slak_periphMove m p with hkeep | ⟨_, hfall⟩
    · exact hkeep.trans hn.slakClear
    · exact hfall
  · rcases inak_periphMove m p with hkeep | hfollow
    · exact hkeep.trans hn.inakClear
    · exact hfollow.trans hn.inrqClear

/-! The mailboxes (R50 to R52). -/

/-- `TXRQ` is 1 exactly in a Pending mailbox (R51, R52). -/
def RequestExact (b : Mailbox) : Prop := fieldBit layout.txrq b.ti = decide (b.mbs = .pending)

/-- Replacing a mailbox by one whose TXRQ is exact (R51). -/
theorem requestExact_setBox {p : Periph} (hp : ∀ k, RequestExact (getBox p k)) (m : MailboxIndex) {b : Mailbox}
    (hb : RequestExact b) (k : MailboxIndex) : RequestExact (getBox (setBox p m b) k) := by
  rw [getBox_setBox]
  split
  · exact hb
  · exact hp k

/-- The reset pulse leaves every TXRQ at 0 and every mailbox Empty (R48). -/
theorem requestExact_periphAfterReset (n : Nat) (k : MailboxIndex) : RequestExact (getBox (periphAfterReset n) k) := by
  rw [getBox_periphAfterReset]
  exact txrq_mailboxAfterReset _

/-- A data write leaves the mailbox Empty and requests no transmission (R197 to R200). -/
theorem dataWrite_box {f : RawFrame} {m : MailboxIndex} {b b' : Mailbox} {p q : Phase} {r : Reg} {v : Word}
    (h : DataWrite f m b p q r v b') (he : b.mbs = .empty) (hb : RequestExact b) :
    b'.mbs = .empty ∧ RequestExact b' := by
  cases h with
  | length | low | high => exact ⟨he, hb⟩
  | identifier => exact ⟨he, (txrq_idWord f).trans (by rw [he]; rfl)⟩

/-- A move of PERIPH keeps TXRQ exact (R52). -/
theorem requestExact_periphMove {p : Periph} (m : PeriphMove) {k : MailboxIndex} (hb : RequestExact (getBox p k)) :
    RequestExact (getBox (periphMove m p) k) := by
  unfold RequestExact at *
  rcases getBox_periphMove_ti_mbs m p k with ⟨hti, hmbs⟩ | ⟨_, _, htxrq, hempty⟩
  · rw [hti, hmbs, hb]
  · rw [htxrq, hempty]
    rfl

/-- A move of PERIPH leaves an Empty mailbox Empty (R51, R52). -/
theorem empty_periphMove {p : Periph} (m : PeriphMove) {k : MailboxIndex} (he : (getBox p k).mbs = .empty) :
    (getBox (periphMove m p) k).mbs = .empty := by
  rcases getBox_periphMove_ti_mbs m p k with ⟨_, hmbs⟩ | ⟨_, _, _, hempty⟩
  · exact hmbs.trans he
  · exact hempty

/-! The three kinds of state: at rest, in CONFIGURE, in TRANSMIT. -/

/-- A state in which no command runs (R26). -/
theorem invariant_atRest {t : State} (hconfigure : inConfigure t.ph = false) (htransmit : inTransmit t.ph = false)
    (hbusy : t.busy = false) (hfault : t.fault = decide (t.ph = .halt))
    (hnoFault : t.fault = false → t.fcode = .none ∧ t.finfo = 0#32) (hcode : t.fault = true → t.fcode ≠ .none)
    (hready : t.cfg = true → busReady t = true) (hnormal : t.cfg = true → Normal t.periph)
    (hrequest : ∀ k, RequestExact (getBox t.periph k)) (hreserved : t.periph.mcr &&& mcrReserved = 0#32) :
    Invariant t := by
  have hpulse : afterPulse t.ph = false := afterPulse_of_not_inConfigure hconfigure
  have hmodes := modes_of_not_afterPulse hpulse t.mcrv t.periph.mcr t.periph.msr
  have hwrites : writesMailbox t.ph = false := by
    revert htransmit
    cases t.ph <;> decide
  exact {
    busyExact := by rw [hbusy, hconfigure, htransmit, Bool.or_false]
    faultExact := hfault
    noFault := hnoFault
    hasCode := hcode
    configuring := fun h => absurd (hconfigure.symm.trans h) Bool.false_ne_true
    transmitting := fun h => absurd (htransmit.symm.trans h) Bool.false_ne_true
    clockEnabled := fun h => by simp [hconfigure] at h
    busIsReady := fun h => hready (by simpa [hpulse] using h)
    normal := hnormal
    latched := hmodes.latched
    sleepClear := hmodes.sleepClear
    slakClear := hmodes.slakClear
    inrqSet := hmodes.inrqSet
    inakSet := hmodes.inakSet
    inrqClear := hmodes.inrqClear
    prescalerRange := fun h => absurd (hconfigure.symm.trans h) Bool.false_ne_true
    frameWf := fun h => absurd (htransmit.symm.trans h) Bool.false_ne_true
    boxEmpty := fun h => absurd (hwrites.symm.trans h) Bool.false_ne_true
    requestExact := hrequest
    mcrReservedZero := hreserved }

/-- A state in which CONFIGURE runs (R170). -/
theorem invariant_inConfigure {t : State} (hconfigure : inConfigure t.ph = true) (hbusy : t.busy = true)
    (hfault : t.fault = false) (hnoFault : t.fcode = .none ∧ t.finfo = 0#32) (hcfg : t.cfg = false)
    (hclock : t.ph ≠ .cfEn → t.bcEn = true) (hready : afterPulse t.ph = true → busReady t = true)
    (hmodes : Modes t.ph t.mcrv t.periph.mcr t.periph.msr) (hpre : 1 ≤ t.pre.toNat ∧ t.pre.toNat < params.prescBound)
    (hrequest : ∀ k, RequestExact (getBox t.periph k)) (hreserved : t.periph.mcr &&& mcrReserved = 0#32) :
    Invariant t := by
  obtain ⟨hhalt, htransmit, hwrites⟩ := outside_of_inConfigure hconfigure
  exact {
    busyExact := by rw [hbusy, hconfigure, Bool.true_or]
    faultExact := hfault.trans hhalt.symm
    noFault := fun _ => hnoFault
    hasCode := fun h => absurd (hfault.symm.trans h) Bool.false_ne_true
    configuring := fun _ => hcfg
    transmitting := fun h => absurd (htransmit.symm.trans h) Bool.false_ne_true
    clockEnabled := fun h => hclock (by simpa [hconfigure] using h)
    busIsReady := fun h => hready (by simpa [hcfg] using h)
    normal := fun h => absurd (hcfg.symm.trans h) Bool.false_ne_true
    latched := hmodes.latched
    sleepClear := hmodes.sleepClear
    slakClear := hmodes.slakClear
    inrqSet := hmodes.inrqSet
    inakSet := hmodes.inakSet
    inrqClear := hmodes.inrqClear
    prescalerRange := fun _ => hpre
    frameWf := fun h => absurd (htransmit.symm.trans h) Bool.false_ne_true
    boxEmpty := fun h => absurd (hwrites.symm.trans h) Bool.false_ne_true
    requestExact := hrequest
    mcrReservedZero := hreserved }

/-- A state in which TRANSMIT runs (R190). -/
theorem invariant_inTransmit {t : State} (htransmit : inTransmit t.ph = true) (hbusy : t.busy = true)
    (hfault : t.fault = false) (hnoFault : t.fcode = .none ∧ t.finfo = 0#32) (hcfg : t.cfg = true)
    (hready : busReady t = true) (hnormal : Normal t.periph) (hwf : t.fl.wf = true)
    (hempty : writesMailbox t.ph = true → (getBox t.periph t.mb).mbs = .empty)
    (hrequest : ∀ k, RequestExact (getBox t.periph k)) (hreserved : t.periph.mcr &&& mcrReserved = 0#32) :
    Invariant t := by
  obtain ⟨hhalt, hconfigure⟩ := outside_of_inTransmit htransmit
  have hmodes := modes_of_not_afterPulse (afterPulse_of_not_inConfigure hconfigure) t.mcrv t.periph.mcr t.periph.msr
  exact {
    busyExact := by rw [hbusy, htransmit, Bool.or_true]
    faultExact := hfault.trans hhalt.symm
    noFault := fun _ => hnoFault
    hasCode := fun h => absurd (hfault.symm.trans h) Bool.false_ne_true
    configuring := fun h => absurd (hconfigure.symm.trans h) Bool.false_ne_true
    transmitting := fun _ => hcfg
    clockEnabled := fun h => by simp [hconfigure] at h
    busIsReady := fun _ => hready
    normal := fun _ => hnormal
    latched := hmodes.latched
    sleepClear := hmodes.sleepClear
    slakClear := hmodes.slakClear
    inrqSet := hmodes.inrqSet
    inakSet := hmodes.inakSet
    inrqClear := hmodes.inrqClear
    prescalerRange := fun h => absurd (hconfigure.symm.trans h) Bool.false_ne_true
    frameWf := fun _ => hwf
    boxEmpty := hempty
    requestExact := hrequest
    mcrReservedZero := hreserved }

/-- Outside HALT no fault is recorded (R23, R231). -/
theorem noFault_of_ne_halt {s : State} (hi : Invariant s) (hph : decide (s.ph = .halt) = false) :
    s.fault = false ∧ s.fcode = .none ∧ s.finfo = 0#32 := by
  have hfault : s.fault = false := hi.faultExact.trans hph
  exact ⟨hfault, hi.noFault hfault⟩

/-- Once configured the bus is ready (R57, R172). -/
theorem busReady_of_cfg {s : State} (hi : Invariant s) (hcfg : s.cfg = true) : busReady s = true :=
  hi.busIsReady (by rw [hcfg, Bool.or_true])

/-- A step within CONFIGURE (R170): the bus, MCRV and the peripheral may have changed. -/
theorem invariant_withinConfigure {s : State} (hi : Invariant s) (hp : inConfigure s.ph = true) {q : Phase}
    (hq : inConfigure q = true) {en rst : Bool} {mcrv : Word} {p : Periph} {tr : List Action} {n : Nat}
    (hclock : q ≠ .cfEn → en = true) (hready : afterPulse q = true → (en && !rst) = true)
    (hmodes : Modes q mcrv p.mcr p.msr) (hrequest : ∀ k, RequestExact (getBox p k))
    (hreserved : p.mcr &&& mcrReserved = 0#32) :
    Invariant { s with bcEn := en, bcRst := rst, mcrv := mcrv, periph := p, trace := tr, draws := n, ph := q } := by
  obtain ⟨hfault, hnoFault⟩ := noFault_of_ne_halt hi (outside_of_inConfigure hp).1
  have hbusy : s.busy = true := by rw [hi.busyExact, hp, Bool.true_or]
  exact invariant_inConfigure hq hbusy hfault hnoFault (hi.configuring hp) hclock hready hmodes (hi.prescalerRange hp)
    hrequest hreserved

/-- A step within TRANSMIT (R190): the latches TSRV and MB and one mailbox may have changed. -/
theorem invariant_withinTransmit {s : State} (hi : Invariant s) (hp : inTransmit s.ph = true) {q : Phase}
    (hq : inTransmit q = true) {v : Word} {m : MailboxIndex} {p : Periph} {tr : List Action}
    (hmcr : p.mcr = s.periph.mcr) (hmsr : p.msr = s.periph.msr)
    (hempty : writesMailbox q = true → (getBox p m).mbs = .empty) (hrequest : ∀ k, RequestExact (getBox p k)) :
    Invariant { s with tsrv := v, mb := m, periph := p, trace := tr, ph := q } := by
  obtain ⟨hfault, hnoFault⟩ := noFault_of_ne_halt hi (outside_of_inTransmit hp).1
  have hbusy : s.busy = true := by rw [hi.busyExact, hp, Bool.or_true]
  have hcfg : s.cfg = true := hi.transmitting hp
  have hready : busReady s = true := busReady_of_cfg hi hcfg
  obtain ⟨hsleep, hinrq, hslak, hinak⟩ := hi.normal hcfg
  have hnormal : Normal p := ⟨hmcr ▸ hsleep, hmcr ▸ hinrq, hmsr ▸ hslak, hmsr ▸ hinak⟩
  exact invariant_inTransmit hq hbusy hfault hnoFault hcfg hready hnormal (hi.frameWf hp) hempty
    hrequest (hmcr ▸ hi.mcrReservedZero)

/-- A command that ends without a fault and leaves the mode bits alone (R10). -/
theorem invariant_ended {s : State} (hi : Invariant s) (hph : decide (s.ph = .halt) = false) {cmd : Option CmdRecord}
    {v : Word} {p : Periph} {tr : List Action} {tx : LastTx} {r : Option Result} (hmcr : p.mcr = s.periph.mcr)
    (hmsr : p.msr = s.periph.msr) (hrequest : ∀ k, RequestExact (getBox p k)) :
    Invariant { s with
      cmd := cmd, tsrv := v, periph := p, trace := tr, lastTx := tx, result := r, busy := false, ph := .idle } := by
  obtain ⟨hfault, hnoFault⟩ := noFault_of_ne_halt hi hph
  have hready : s.cfg = true → busReady s = true := busReady_of_cfg hi
  have hnormal : s.cfg = true → Normal p := fun hcfg =>
    have ⟨hsleep, hinrq, hslak, hinak⟩ := hi.normal hcfg
    ⟨hmcr ▸ hsleep, hmcr ▸ hinrq, hmsr ▸ hslak, hmsr ▸ hinak⟩
  exact invariant_atRest rfl rfl rfl hfault (fun _ => hnoFault)
    (fun h => absurd (hfault.symm.trans h) Bool.false_ne_true) hready hnormal hrequest
    (hmcr ▸ hi.mcrReservedZero)

end Sys2Proof.Proofs

/-! Every turn of every agent keeps the invariant and answers a next state (R12, R57, R66, R205 (i)). -/

namespace Sys2Proof.Proofs

open Sys2Proof.Machine Sys2Proof.Safety Sys2Proof.Laws

/-- Reading MCR happens in CONFIGURE (R173). -/
theorem inConfigure_readMcr {p q : Phase} (h : McrRead p q) : inConfigure p = true ∧ inConfigure q = true := by
  cases h <;> decide

/-- Writing MCR happens in CONFIGURE, with the value just latched (R173). -/
theorem inConfigure_writeMcr {p q : Phase} {v w : Word} (h : McrWrite v p q w) :
    inConfigure p = true ∧ inConfigure q = true ∧ writesMcr p = true := by
  cases h <;> decide

/-- The polls that go on stay in CONFIGURE (R175). -/
theorem inConfigure_poll {msr : Word} {p q : Phase} (h : Poll msr p q) :
    inConfigure p = true ∧ inConfigure q = true := by
  cases h <;> decide

/-- The data writes happen in TRANSMIT, in its window (R73). -/
theorem inTransmit_dataWrite {f : RawFrame} {m : MailboxIndex} {b b' : Mailbox} {p q : Phase} {r : Reg} {v : Word}
    (h : DataWrite f m b p q r v b') : inTransmit p = true ∧ inTransmit q = true := by
  cases h <;> decide

/-- A step of CONFIGURE that finds the bus ready and leaves it so (R57). -/
theorem clockEnabled_of_busReady {s : State} (hb : busReady s = true) : s.bcEn = true :=
  ((busReady_iff s).mp hb).1

/-- Every later step of a command keeps the invariant. -/
theorem invariant_phaseStep {s t : State} (hi : Invariant s) (h : PhaseStep s t) : Invariant t := by
  have hm := modes_of_invariant hi
  cases h with
  | halted hph => exact hi
  | enable hph =>
    exact invariant_withinConfigure hi (by rw [hph]; rfl) rfl (fun _ => rfl) nofun
      (modes_of_not_afterPulse rfl _ _ _) hi.requestExact hi.mcrReservedZero
  | assertReset hph =>
    have hreset : layout.mcrReset &&& mcrReserved = 0#32 := by decide
    exact invariant_withinConfigure hi (by rw [hph]; rfl) rfl (fun _ => hi.clockEnabled (by rw [hph]; rfl)) nofun
      (modes_of_not_afterPulse rfl _ _ _) (requestExact_periphAfterReset _) hreset
  | deassertReset hph =>
    have hen : s.bcEn = true := hi.clockEnabled (by rw [hph]; rfl)
    exact invariant_withinConfigure hi (by rw [hph]; rfl) rfl (fun _ => hen) (fun _ => by rw [hen]; rfl)
      ⟨nofun, nofun, nofun, nofun, nofun, nofun⟩ hi.requestExact hi.mcrReservedZero
  | readMcr hb hq =>
    obtain ⟨hp, hq'⟩ := inConfigure_readMcr hq
    exact invariant_withinConfigure hi hp hq' (fun _ => clockEnabled_of_busReady hb) (fun _ => hb)
      (modes_readMcr hq hm) hi.requestExact hi.mcrReservedZero
  | writeMcr hb hq =>
    obtain ⟨hp, hq', hw⟩ := inConfigure_writeMcr hq
    have hres : s.mcrv &&& mcrReserved = 0#32 := by rw [hi.latched hw, hi.mcrReservedZero]
    exact invariant_withinConfigure hi hp hq' (fun _ => clockEnabled_of_busReady hb) (fun _ => hb)
      (modes_writeMcr hq hm) (fun k => by rw [getBox_mcr]; exact hi.requestExact k) (reserved_writeMcr hq hres)
  | poll hb hq =>
    obtain ⟨hp, hq'⟩ := inConfigure_poll hq
    exact invariant_withinConfigure hi hp hq' (fun _ => clockEnabled_of_busReady hb) (fun _ => hb)
      (modes_poll hq hm) hi.requestExact hi.mcrReservedZero
  | writeBtr hb hph =>
    have hinak : fieldBit layout.inak s.periph.msr = true := hi.inakSet (by rw [hph]; rfl)
    rw [hinak, if_pos rfl]
    exact invariant_withinConfigure hi (by rw [hph]; rfl) rfl (fun _ => clockEnabled_of_busReady hb) (fun _ => hb)
      (modes_writeBtr (hph ▸ hm)) (fun k => by rw [getBox_btr]; exact hi.requestExact k) hi.mcrReservedZero
  | configured hb hph hleft =>
    obtain ⟨hfault, hnoFault⟩ := noFault_of_ne_halt hi (by rw [hph]; rfl)
    have hnormal : Normal s.periph :=
      ⟨hi.sleepClear (by rw [hph]; rfl), hi.inrqClear hph, hi.slakClear (by rw [hph]; rfl),
        (Bool.not_eq_true' _).mp hleft⟩
    exact invariant_atRest rfl rfl rfl hfault (fun _ => hnoFault)
      (fun h => absurd (hfault.symm.trans h) Bool.false_ne_true) (fun _ => hb) (fun _ => hnormal) hi.requestExact
      hi.mcrReservedZero
  | selected hb hph hm =>
    exact invariant_withinTransmit hi (by rw [hph]; rfl) rfl rfl rfl (fun _ => empty_of_selectMailbox hm)
      hi.requestExact
  | dropped hb hph hm => exact invariant_ended hi (by rw [hph]; rfl) rfl rfl hi.requestExact
  | dataWrite hb he hq =>
    obtain ⟨hp, hq'⟩ := inTransmit_dataWrite hq
    obtain ⟨hempty, hrequest⟩ := dataWrite_box hq he (hi.requestExact _)
    exact invariant_withinTransmit hi hp hq' (setBox_mcr _ _ _) (setBox_msr _ _ _)
      (fun _ => by rw [getBox_setBox_same]; exact hempty) (requestExact_setBox hi.requestExact _ hrequest)
  | queued hb he hph =>
    exact invariant_ended hi (by rw [hph]; rfl) (setBox_mcr _ _ _) (setBox_msr _ _ _)
      (requestExact_setBox hi.requestExact _ (txrq_requestWord _))

/-- From a phase other than IDLE a state that meets the invariant has a step (R205 (i), U4, U5). -/
theorem phaseStep_exists {s : State} (hi : Invariant s) (hph : s.ph ≠ .idle) : ∃ t, PhaseStep s t := by
  have hconfigure (hp : afterPulse s.ph = true) : busReady s = true := hi.busIsReady (by rw [hp, Bool.true_or])
  have htransmit (hp : inTransmit s.ph = true) : busReady s = true := busReady_of_cfg hi (hi.transmitting hp)
  have hempty := hi.boxEmpty
  generalize hp : s.ph = p at hph hconfigure htransmit hempty
  have hread {q : Phase} (hb : busReady s = true) (hq : McrRead p q) : ∃ t, PhaseStep s t :=
    ⟨_, .readMcr hb (hp ▸ hq)⟩
  have hwrite {q : Phase} {v : Word} (hb : busReady s = true) (hq : McrWrite s.mcrv p q v) : ∃ t, PhaseStep s t :=
    ⟨_, .writeMcr hb (hp ▸ hq)⟩
  have hpoll {q : Phase} (hb : busReady s = true) (hq : Poll s.periph.msr p q) : ∃ t, PhaseStep s t :=
    ⟨_, .poll hb (hp ▸ hq)⟩
  have hdata {q : Phase} {r : Reg} {v : Word} {b : Mailbox} (hb : busReady s = true)
      (he : (getBox s.periph s.mb).mbs = .empty) (hq : DataWrite s.fl s.mb (getBox s.periph s.mb) p q r v b) :
      ∃ t, PhaseStep s t := ⟨_, .dataWrite hb he (hp ▸ hq)⟩
  cases p
  case idle => exact absurd rfl hph
  case halt => exact ⟨_, .halted hp⟩
  case cfEn => exact ⟨_, .enable hp⟩
  case cfRstA => exact ⟨_, .assertReset hp⟩
  case cfRstD => exact ⟨_, .deassertReset hp⟩
  case cfWakeRd => exact hread (hconfigure rfl) .wake
  case cfInitRd => exact hread (hconfigure rfl) .init
  case cfExitRd => exact hread (hconfigure rfl) .exit
  case cfWakeWr => exact hwrite (hconfigure rfl) .wake
  case cfInitWr => exact hwrite (hconfigure rfl) .init
  case cfExitWr => exact hwrite (hconfigure rfl) .exit
  case cfWakePoll =>
    cases hd : wakeDone s.periph.msr
    · exact hpoll (hconfigure rfl) (.wakeAgain hd)
    · exact hpoll (hconfigure rfl) (.wakeExit hd)
  case cfInitPoll =>
    cases hd : Machine.initEntered s.periph.msr
    · exact hpoll (hconfigure rfl) (.initAgain hd)
    · exact hpoll (hconfigure rfl) (.initExit hd)
  case cfExitPoll =>
    cases hd : initLeft s.periph.msr
    · exact hpoll (hconfigure rfl) (.exitAgain hd)
    · exact ⟨_, .configured (hconfigure rfl) hp hd⟩
  case cfBtrWr => exact ⟨_, .writeBtr (hconfigure rfl) hp⟩
  case txTsrRd =>
    cases hm : selectMailbox (tsrValue s.periph) with
    | none => exact ⟨_, .dropped (htransmit rfl) hp hm⟩
    | some m => exact ⟨_, .selected (htransmit rfl) hp hm⟩
  case txDlcWr => exact hdata (htransmit rfl) (hempty rfl) .length
  case txIdWr => exact hdata (htransmit rfl) (hempty rfl) .identifier
  case txDlWr => exact hdata (htransmit rfl) (hempty rfl) .low
  case txDhWr => exact hdata (htransmit rfl) (hempty rfl) .high
  case txRqWr => exact ⟨_, .queued (htransmit rfl) (hempty rfl) hp⟩

/-! Acceptance (R93): the parts of the commands keep the invariant from the state in which they run. -/

/-- What a command's part finds: an idle block that meets the invariant, with its record taken (R93). -/
def accepted (s : State) : State := { s with busy := true, cmd := none, result := none }

/-- A fault raised at acceptance (R230). -/
theorem invariant_raise {s : State} (hi : Invariant s) {x : FaultRaise} (hx : x.code ≠ .none) :
    Invariant (raise x (accepted s)) :=
  have hready : s.cfg = true → busReady s = true := busReady_of_cfg hi
  invariant_atRest rfl rfl rfl rfl nofun (fun _ => hx) hready hi.normal hi.requestExact hi.mcrReservedZero

/-- The end of a pure command (R10). -/
theorem invariant_finish {s : State} (hi : Invariant s) (hph : s.ph = .idle) {r : Except FaultRaise Result}
    (hr : FaultsNamed r) : Invariant (finish r (accepted s)) := by
  cases r with
  | ok v => exact invariant_ended hi (by rw [hph]; rfl) rfl rfl hi.requestExact
  | error x => exact invariant_raise hi (hr x rfl)

/-- The acceptance of CONFIGURE (R171). -/
theorem invariant_acceptConfigure {s : State} (hi : Invariant s) (hph : s.ph = .idle) (clock baud : Word) :
    Invariant (acceptConfigure clock baud (accepted s)) := by
  unfold acceptConfigure
  split
  next => exact invariant_raise hi FaultCode.noConfusion
  next hcfg =>
    split
    next x hx => exact invariant_raise hi (faultsNamed_prescaler clock baud x hx)
    next p hp =>
      obtain ⟨hfault, hnoFault⟩ := noFault_of_ne_halt hi (by rw [hph]; rfl)
      exact invariant_inConfigure rfl rfl hfault hnoFault (Bool.eq_false_iff.mpr hcfg) (fun h => absurd rfl h) nofun
        (modes_of_not_afterPulse rfl _ _ _) (prescaler_range hp) hi.requestExact hi.mcrReservedZero

/-- The acceptance of TRANSMIT (R191). -/
theorem invariant_acceptTransmit {s : State} (hi : Invariant s) (hph : s.ph = .idle) (f : RawFrame) :
    Invariant (acceptTransmit f (accepted s)) := by
  unfold acceptTransmit
  split
  next hcfg =>
    split
    next x hx => exact invariant_raise hi (faultsNamed_checkFrame f x hx)
    next g hg =>
      obtain ⟨hfault, hnoFault⟩ := noFault_of_ne_halt hi (by rw [hph]; rfl)
      have hready : busReady s = true := busReady_of_cfg hi hcfg
      exact invariant_inTransmit rfl rfl hfault hnoFault hcfg hready (hi.normal hcfg) g.isWf nofun hi.requestExact
        hi.mcrReservedZero
  next => exact invariant_raise hi FaultCode.noConfusion

/-- An acceptance step keeps the invariant if the command's part does (R93). -/
theorem invariant_accept {body : State → State} {s : State} (hi : Invariant s)
    (hbody : s.ph = .idle → Invariant (body (accepted s))) : ∃ t, accept body s = .next t ∧ Invariant t := by
  cases hcan : canAccept s with
  | true => exact ⟨_, accept_ready body s hcan, hbody ((canAccept_iff s).mp hcan).1⟩
  | false => exact ⟨s, accept_waits body s hcan, hi⟩

/-- The acceptance step of every command keeps the invariant. -/
theorem invariant_exec {s : State} (hi : Invariant s) (i : Instr) : ∃ t, exec i s = .next t ∧ Invariant t := by
  cases i with
  | frameNew id n data remote extended =>
    exact invariant_accept hi fun hph =>
      invariant_finish hi hph (faultsNamed_map _ (faultsNamed_newFrame id n data remote extended))
  | frameId f | frameIsExtended f | frameIsRtr f | frameData f | serialize f =>
    exact invariant_accept hi fun hph => invariant_finish hi hph (faultsNamed_map _ (faultsNamed_checkFrame f))
  | btrEncode clock baud =>
    exact invariant_accept hi fun hph => invariant_finish hi hph (faultsNamed_map _ (faultsNamed_prescaler clock baud))
  | configure clock baud => exact invariant_accept hi fun hph => invariant_acceptConfigure hi hph clock baud
  | transmit f => exact invariant_accept hi fun hph => invariant_acceptTransmit hi hph f

/-- The step from IDLE keeps the invariant (R93, R110). -/
theorem invariant_stepIdle {s : State} (hi : Invariant s) : ∃ t, stepIdle s = .next t ∧ Invariant t := by
  unfold stepIdle
  split
  next => exact ⟨s, rfl, hi⟩
  next r _ =>
    split
    next i _ => exact invariant_exec hi i
    next op _ => exact invariant_accept hi fun _ => invariant_raise hi FaultCode.noConfusion

/-- Every step of SEQ keeps the invariant. -/
theorem invariant_seqStep {s : State} (hi : Invariant s) : ∃ t, seqStep s = .next t ∧ Invariant t := by
  by_cases hph : s.ph = .idle
  · rw [seqStep, hph]
    exact invariant_stepIdle hi
  · obtain ⟨t, ht⟩ := phaseStep_exists hi hph
    exact ⟨t, ht.seqStep_eq, invariant_phaseStep hi ht⟩

/-! HOST and PERIPH. -/

/-- A move of HOST keeps the invariant (R29, R275). -/
theorem invariant_hostMove {s : State} (hi : Invariant s) (m : HostMove) : Invariant (hostMove m s) := by
  cases m with
  | offer r =>
    simp only [hostMove]
    split
    · exact { hi with }
    · exact hi
  | blockReset l =>
    exact invariant_atRest rfl rfl rfl rfl (fun _ => ⟨rfl, rfl⟩) nofun nofun nofun hi.requestExact hi.mcrReservedZero

/-- A turn of PERIPH keeps the invariant (R50 to R56). -/
theorem invariant_periphTurn {s : State} (hi : Invariant s) (m : PeriphMove) : Invariant (periphTurn m s) := by
  rcases periphTurn_cases m s with hturn | hturn <;> rw [hturn]
  · have hm := modes_periphMove m (modes_of_invariant hi)
    exact { hi with
      normal := fun h => normal_periphMove m (hi.normal h)
      latched := hm.latched
      sleepClear := hm.sleepClear
      slakClear := hm.slakClear
      inrqSet := hm.inrqSet
      inakSet := hm.inakSet
      inrqClear := hm.inrqClear
      boxEmpty := fun h => empty_periphMove m (hi.boxEmpty h)
      requestExact := fun k => requestExact_periphMove m (hi.requestExact k)
      mcrReservedZero := by rw [storePeriph_periph, periphMove_mcr]; exact hi.mcrReservedZero }
  · exact hi

/-- Every turn of every agent keeps the invariant and answers a next state (R12). -/
theorem invariant_runTurn {s : State} (hi : Invariant s) (t : Turn) : ∃ u, runTurn t s = .next u ∧ Invariant u := by
  cases t with
  | seq => exact invariant_seqStep hi
  | host m => exact ⟨_, rfl, invariant_hostMove hi m⟩
  | periph m => exact ⟨_, rfl, invariant_periphTurn hi m⟩

/-- The invariant does not speak of whose turn it is (R12). -/
theorem invariant_takeTurn {s : State} (hi : Invariant s) : Invariant (takeTurn s).2 := by
  unfold takeTurn
  split
  · exact { hi with }
  · exact { hi with }

/-- Every step answers a next state that meets the invariant again (R12). -/
theorem invariant_step {s : State} (hi : Invariant s) : ∃ t, step s = .next t ∧ Invariant t :=
  invariant_runTurn (invariant_takeTurn hi) _

/-- Settles O58: the block is at rest after reset, unconfigured, with every mailbox Empty. -/
theorem resetMeetsInvariant : Obligations.ResetMeetsInvariant :=
  invariant_atRest rfl rfl rfl rfl (fun _ => ⟨rfl, rfl⟩) nofun nofun nofun (by unfold RequestExact; decide) (by decide)

/-- Settles O59, turn by turn. -/
theorem stepKeepsInvariant : Obligations.StepKeepsInvariant := by
  intro s t hi h
  obtain ⟨u, hu, hiu⟩ := invariant_step hi
  rw [h] at hu
  injection hu with hu
  exact hu ▸ hiu

/-- Settles O60, turn by turn. -/
theorem invariantStatesNeverStop : Obligations.InvariantStatesNeverStop := by
  intro s hi
  obtain ⟨t, ht, _⟩ := invariant_step hi
  exact ⟨t, ht⟩

end Sys2Proof.Proofs

/-! The register words as concatenations of their fields (R60, R101 to R106), and what reading a field back gives. -/

namespace Sys2Proof.Proofs

open Sys2Proof.Machine Sys2Proof.Safety Sys2Proof.Laws

/-- The low bit of a flag's word is the flag (R9). -/
theorem extractLsb'_flagWord (b : Bool) : (flagWord b).extractLsb' 0 1 = BitVec.ofBool b := by
  cases b <;> rfl

/-- A byte in its lane (R60). -/
theorem fieldPut_byte (k : Nat) (d : Byte) : fieldPut ⟨k, 8⟩ (d.setWidth 32) = d.setWidth 32 <<< k := by
  simp [fieldPut]

/-- A field that reaches the top of the word takes all the bits that are shifted into it. -/
theorem fieldPut_top {k w : Nat} (h : 32 ≤ k + w) (v : Word) : fieldPut ⟨k, w⟩ v = v <<< k := by
  refine BitVec.eq_of_getLsbD_eq fun i hi => ?_
  rw [getLsbD_fieldPut, BitVec.getLsbD_shiftLeft]
  by_cases hk : i < k
  · simp [hk]
  · have hw : i - k < w := by omega
    simp [hk, hw, Nat.not_lt.mp hk]

/-! The identifier word (R101). -/

/-- The identifier word of an extended frame as a concatenation. -/
theorem idWord_extended {f : RawFrame} (h : f.ext = true) :
    idWord f = f.id.extractLsb' 0 29 ++ 1#1 ++ BitVec.ofBool f.rtr ++ 0#1 := by
  rw [← BitVec.setWidth_eq (x := f.id.extractLsb' 0 29 ++ 1#1 ++ BitVec.ofBool f.rtr ++ 0#1)]
  simp only [BitVec.setWidth_append_eq_shiftLeft_setWidth_or]
  simp [idWord, h, layout, fieldPut, BitVec.setWidth_eq_extractLsb', extractLsb'_flagWord, BitVec.shiftLeft_or_distrib,
    ← BitVec.shiftLeft_add]

/-- The identifier word of a standard frame as a concatenation. -/
theorem idWord_standard {f : RawFrame} (h : f.ext = false) :
    idWord f = f.id.extractLsb' 0 11 ++ 0#18 ++ 0#1 ++ BitVec.ofBool f.rtr ++ 0#1 := by
  rw [← BitVec.setWidth_eq (x := f.id.extractLsb' 0 11 ++ 0#18 ++ 0#1 ++ BitVec.ofBool f.rtr ++ 0#1)]
  simp only [BitVec.setWidth_append_eq_shiftLeft_setWidth_or]
  simp [idWord, h, layout, fieldPut, BitVec.setWidth_eq_extractLsb', extractLsb'_flagWord, BitVec.shiftLeft_or_distrib,
    ← BitVec.shiftLeft_add]

/-- RTR in shift form. -/
theorem fieldPut_rtr (b : Bool) : fieldPut layout.rtr (flagWord b) = flagWord b <<< 1 := by
  cases b <;> rfl

/-- The identifier word of an extended frame in shift form. -/
theorem idWord_extended_shift {f : RawFrame} (h : f.ext = true) :
    idWord f = (f.id <<< 3) ||| 0x4#32 ||| (flagWord f.rtr <<< 1) := by
  have hid : fieldPut layout.exid29 f.id = f.id <<< 3 := fieldPut_top (by decide) f.id
  have hide : fieldPut layout.ide 1#32 = 0x4#32 := by decide
  rw [idWord, if_pos h, hid, hide, fieldPut_rtr]

/-- The identifier word of a standard frame in shift form. -/
theorem idWord_standard_shift {f : RawFrame} (h : f.ext = false) :
    idWord f = (f.id <<< 21) ||| (flagWord f.rtr <<< 1) := by
  have hid : fieldPut layout.stid f.id = f.id <<< 21 := fieldPut_top (by decide) f.id
  rw [idWord, if_neg (Bool.eq_false_iff.mp h), hid, fieldPut_rtr]

/-- The identifier word in R101's two cases. -/
theorem idWord_eq (f : RawFrame) :
    idWord f = if f.ext then f.id.extractLsb' 0 29 ++ 1#1 ++ BitVec.ofBool f.rtr ++ 0#1
      else f.id.extractLsb' 0 11 ++ 0#18 ++ 0#1 ++ BitVec.ofBool f.rtr ++ 0#1 := by
  split
  next h => exact idWord_extended h
  next h => exact idWord_standard (Bool.eq_false_iff.mpr h)

/-- Settles O19, mode by mode. -/
theorem identifierWordLayout : Obligations.IdentifierWordLayout :=
  fun _ => ⟨fun h => ⟨idWord_extended h, idWord_extended_shift h⟩,
    fun h => ⟨idWord_standard h, idWord_standard_shift h⟩⟩

/-- The request word sets bit 0 of the identifier word (R103). -/
theorem requestWord_eq (f : RawFrame) : requestWord f = idWord f ||| 0x1#32 := by
  have hmask : fieldMask layout.txrq = 0x1#32 := by decide
  rw [requestWord, fieldSet, hmask]

/-- Settles O21: TXRQ is bit 0. -/
theorem requestWordLayout : Obligations.RequestWordLayout := requestWord_eq

/-! The data-length word (R102) and the data words (R60). -/

/-- The data-length word is the length, every other bit 0. -/
theorem tdtWord_eq (f : RawFrame) : tdtWord f = f.len.setWidth 32 := by
  simp [tdtWord, fieldPut, layout]

/-- The length is read back from the data-length word. -/
theorem extractLsb'_tdtWord (f : RawFrame) : (tdtWord f).extractLsb' 0 4 = f.len := by
  rw [tdtWord_eq, BitVec.extractLsb'_setWidth_of_le (by decide), BitVec.extractLsb'_eq_self]

/-- No bit of the data-length word stands above the length. -/
theorem getLsbD_tdtWord_high (f : RawFrame) {k : Nat} (hk : 4 ≤ k) : (tdtWord f).getLsbD k = false := by
  rw [tdtWord_eq, BitVec.getLsbD_setWidth, BitVec.getLsbD_of_ge _ _ hk, Bool.and_false]

/-- Settles O20. -/
theorem lengthWordLayout : Obligations.LengthWordLayout :=
  fun f => ⟨tdtWord_eq f, extractLsb'_tdtWord f, fun _ hk => getLsbD_tdtWord_high f hk⟩

/-- Four words joined in the opposite order. -/
theorem or_reverse (a b c d : Word) : a ||| b ||| c ||| d = d ||| c ||| b ||| a := by
  rw [BitVec.or_comm, BitVec.or_comm (a ||| b) c, BitVec.or_comm a b, ← BitVec.or_assoc, ← BitVec.or_assoc]

/-- The lanes are little-endian. -/
theorem laneWord_eq (d0 d1 d2 d3 : Byte) : laneWord d0 d1 d2 d3 = d3 ++ d2 ++ d1 ++ d0 := by
  have hlanes : laneWord d0 d1 d2 d3 =
      d0.setWidth 32 <<< 0 ||| d1.setWidth 32 <<< 8 ||| d2.setWidth 32 <<< 16 ||| d3.setWidth 32 <<< 24 := by
    rw [← fieldPut_byte, ← fieldPut_byte, ← fieldPut_byte, ← fieldPut_byte]
    rfl
  rw [← BitVec.setWidth_eq (x := d3 ++ d2 ++ d1 ++ d0),
    BitVec.setWidth_append_append_append_eq_shiftLeft_setWidth_or, hlanes, or_reverse, BitVec.shiftLeft_zero]

/-- A byte is read back from its lane. -/
theorem extractLsb'_lane (d0 d1 d2 d3 : Byte) :
    (d3 ++ d2 ++ d1 ++ d0).extractLsb' 0 8 = d0 ∧ (d3 ++ d2 ++ d1 ++ d0).extractLsb' 8 8 = d1 ∧
      (d3 ++ d2 ++ d1 ++ d0).extractLsb' 16 8 = d2 ∧ (d3 ++ d2 ++ d1 ++ d0).extractLsb' 24 8 = d3 := by
  simp (disch := decide) only [BitVec.extractLsb'_append_eq_of_le, BitVec.extractLsb'_append_eq_of_add_le,
    BitVec.extractLsb'_eq_self, Nat.reduceSub, and_self]

/-- Settles O22, lane by lane. -/
theorem dataWordLanes : Obligations.DataWordLanes := by
  intro f
  have hlow : tdlWord f = f.data.b3 ++ f.data.b2 ++ f.data.b1 ++ f.data.b0 := laneWord_eq _ _ _ _
  have hhigh : tdhWord f = f.data.b7 ++ f.data.b6 ++ f.data.b5 ++ f.data.b4 := laneWord_eq _ _ _ _
  refine ⟨hlow, hhigh, fun i hi => ?_⟩
  obtain ⟨h0, h1, h2, h3⟩ := extractLsb'_lane f.data.b0 f.data.b1 f.data.b2 f.data.b3
  obtain ⟨h4, h5, h6, h7⟩ := extractLsb'_lane f.data.b4 f.data.b5 f.data.b6 f.data.b7
  rw [hlow, hhigh]
  match i, hi with
  | 0, _ => exact h0
  | 1, _ => exact h1
  | 2, _ => exact h2
  | 3, _ => exact h3
  | 4, _ => exact h4
  | 5, _ => exact h5
  | 6, _ => exact h6
  | 7, _ => exact h7

/-! The timing word (R104). -/

/-- The timing word: every field but BRP is fixed. -/
theorem btrWord_eq (p : Word) : btrWord p = 0x001C0000#32 ||| ((p - 1#32).extractLsb' 0 10).setWidth 32 := by
  simp [btrWord, fieldPut, layout, params, BitVec.setWidth_eq_extractLsb']

/-- The timing word as a concatenation. -/
theorem btrWord_append (p : Word) : btrWord p = 0x700#22 ++ (p - 1#32).extractLsb' 0 10 := by
  rw [btrWord_eq, ← BitVec.setWidth_eq (x := 0x700#22 ++ _), BitVec.setWidth_append_eq_shiftLeft_setWidth_or]
  rfl

/-- A prescaler minus one does not wrap (R162). -/
theorem toNat_sub_one {p : Word} (h : 1 ≤ p.toNat) : (p - 1#32).toNat = p.toNat - 1 := by
  rw [BitVec.toNat_sub_of_le (by rwa [BitVec.le_def])]
  rfl

/-- BRP holds the prescaler minus one (R104). -/
theorem toNat_extractLsb'_brp {p : Word} (hlow : 1 ≤ p.toNat) (hhigh : p.toNat ≤ 511) :
    ((p - 1#32).extractLsb' 0 10).toNat = p.toNat - 1 := by
  rw [BitVec.extractLsb'_toNat, toNat_sub_one hlow, Nat.shiftRight_zero, Nat.mod_eq_of_lt (by omega)]

/-- For a prescaler that fits, BRP cuts nothing off (R104). -/
theorem btrWord_or {p : Word} (hlow : 1 ≤ p.toNat) (hhigh : p.toNat ≤ 511) :
    btrWord p = 0x001C0000#32 ||| (p - 1#32) := by
  have hbrp : ((p - 1#32).extractLsb' 0 10).setWidth 32 = p - 1#32 := by
    refine BitVec.eq_of_toNat_eq ?_
    rw [BitVec.toNat_setWidth, toNat_extractLsb'_brp hlow hhigh, toNat_sub_one hlow, Nat.mod_eq_of_lt (by omega)]
  rw [btrWord_eq, hbrp]

/-- Settles O26, field by field. -/
theorem timingWordLayout : Obligations.TimingWordLayout := by
  intro p hlow hhigh
  have hfield {k n : Nat} (hk : 10 ≤ k) : (btrWord p).extractLsb' k n = (0x700#22).extractLsb' (k - 10) n := by
    rw [btrWord_append, BitVec.extractLsb'_append_eq_of_le hk]
  have hbit : (btrWord p).getLsbD 23 = (0x700#22).getLsbD 13 := by
    rw [btrWord_append, BitVec.getLsbD_append]
    rfl
  have hbrp : (btrWord p).extractLsb' 0 10 = (p - 1#32).extractLsb' 0 10 := by
    rw [btrWord_append, BitVec.extractLsb'_append_eq_of_add_le (by decide), BitVec.extractLsb'_eq_self]
  refine ⟨btrWord_eq p, ?_, ?_, ?_, ?_, ?_, ?_, ?_, ?_⟩
  · exact hfield (by decide)
  · exact hfield (by decide)
  · exact hfield (by decide)
  · exact hbit
  · exact hfield (by decide)
  · exact hfield (by decide)
  · exact hfield (by decide)
  · rw [hbrp, toNat_extractLsb'_brp hlow hhigh]

/-! The master-control words and the poll tests (R106, R107). -/

/-- The wake word clears bit 1. -/
theorem wakeWord_eq (v : Word) : wakeWord v = v &&& 0xFFFFFFFD#32 := by
  have hmask : ~~~ fieldMask layout.sleep = 0xFFFFFFFD#32 := by decide
  rw [wakeWord, fieldClear, hmask]

/-- The initialization word sets bit 0. -/
theorem initWord_eq (v : Word) : initWord v = v ||| 0x00000001#32 := by
  have hmask : fieldMask layout.inrq = 0x00000001#32 := by decide
  rw [initWord, fieldSet, hmask]

/-- The exit word clears bit 0. -/
theorem exitWord_eq (v : Word) : exitWord v = v &&& 0xFFFFFFFE#32 := by
  have hmask : ~~~ fieldMask layout.inrq = 0xFFFFFFFE#32 := by decide
  rw [exitWord, fieldClear, hmask]

/-- Settles O28: SLEEP and SLAK are bit 1, INRQ and INAK bit 0. -/
theorem controlWordsAndPollTests : Obligations.ControlWordsAndPollTests :=
  fun v => ⟨wakeWord_eq v, initWord_eq v, exitWord_eq v, Iff.of_eq (Bool.not_eq_true' _), Iff.rfl,
    Iff.of_eq (Bool.not_eq_true' _)⟩

/-! The serialiser (R138, R139). -/

/-- The flags are read back from the identifier word (R101). -/
theorem getLsbD_idWord (f : RawFrame) :
    (idWord f).getLsbD 2 = f.ext ∧ (idWord f).getLsbD 1 = f.rtr ∧ (idWord f).getLsbD 0 = false := by
  cases h : f.ext
  · rw [idWord_standard h]
    simp only [BitVec.getLsbD_append, BitVec.getLsbD_ofBool]
    simp
  · rw [idWord_extended h]
    simp only [BitVec.getLsbD_append, BitVec.getLsbD_ofBool]
    simp

/-- A legal identifier is read back from the identifier word (R101, R139). -/
theorem identifier_idWord {f : RawFrame} (hf : LegalFrame f) :
    (f.ext = false → ((idWord f).extractLsb' 21 11).setWidth 32 = f.id) ∧
      (f.ext = true → ((idWord f).extractLsb' 3 29).setWidth 32 = f.id) := by
  obtain ⟨_, hstd, hext⟩ := hf
  refine ⟨fun h => ?_, fun h => ?_⟩
  · have hid := hstd h
    rw [idWord_standard h]
    simp (disch := decide) only [BitVec.extractLsb'_append_eq_of_le, BitVec.extractLsb'_eq_self, Nat.reduceSub]
    refine BitVec.eq_of_toNat_eq ?_
    rw [BitVec.toNat_setWidth, BitVec.extractLsb'_toNat]
    omega
  · have hid := hext h
    rw [idWord_extended h]
    simp (disch := decide) only [BitVec.extractLsb'_append_eq_of_le, BitVec.extractLsb'_eq_self, Nat.reduceSub]
    refine BitVec.eq_of_toNat_eq ?_
    rw [BitVec.toNat_setWidth, BitVec.extractLsb'_toNat]
    omega

/-- Frames with the same fields are the same (R21). -/
theorem rawFrame_ext {f g : RawFrame} (hid : f.id = g.id) (hext : f.ext = g.ext) (hrtr : f.rtr = g.rtr)
    (hlen : f.len = g.len) (hdata : f.data = g.data) : f = g := by
  cases f
  cases g
  exact RawFrame.mk.injEq .. ▸ ⟨hid, hext, hrtr, hlen, hdata⟩

/-- Four bytes are read back from a data word (R60). -/
theorem laneWord_injective {a b c d a' b' c' d' : Byte} (h : laneWord a b c d = laneWord a' b' c' d') :
    a = a' ∧ b = b' ∧ c = c' ∧ d = d' := by
  obtain ⟨h0, h1, h2, h3⟩ := extractLsb'_lane a b c d
  obtain ⟨h0', h1', h2', h3'⟩ := extractLsb'_lane a' b' c' d'
  rw [laneWord_eq, laneWord_eq] at h
  rw [← h] at h0' h1' h2' h3'
  exact ⟨h0.symm.trans h0', h1.symm.trans h1', h2.symm.trans h2', h3.symm.trans h3'⟩

/-- The payload is read back from the two data words (R60). -/
theorem payload_eq_of_words {f g : RawFrame} (hlow : tdlWord f = tdlWord g) (hhigh : tdhWord f = tdhWord g) :
    f.data = g.data := by
  obtain ⟨h0, h1, h2, h3⟩ := laneWord_injective hlow
  obtain ⟨h4, h5, h6, h7⟩ := laneWord_injective hhigh
  generalize f.data = d, g.data = e at *
  cases d
  cases e
  exact Payload.mk.injEq .. ▸ ⟨h0, h1, h2, h3, h4, h5, h6, h7⟩

/-- The serialiser is injective on legal frames (R139 (a)). -/
theorem serialWords_injective {f g : RawFrame} (hf : LegalFrame f) (hg : LegalFrame g)
    (h : serialWords f = serialWords g) : f = g := by
  simp only [serialWords, Prod.mk.injEq] at h
  obtain ⟨htdt, hti, htdl, htdh⟩ := h
  have hlen : f.len = g.len := by rw [← extractLsb'_tdtWord f, htdt, extractLsb'_tdtWord]
  have hext : f.ext = g.ext := by rw [← (getLsbD_idWord f).1, hti, (getLsbD_idWord g).1]
  have hrtr : f.rtr = g.rtr := by rw [← (getLsbD_idWord f).2.1, hti, (getLsbD_idWord g).2.1]
  have hid : f.id = g.id := by
    cases he : g.ext
    · rw [← (identifier_idWord hf).1 (hext.trans he), hti, (identifier_idWord hg).1 he]
    · rw [← (identifier_idWord hf).2 (hext.trans he), hti, (identifier_idWord hg).2 he]
  exact rawFrame_ext hid hext hrtr hlen (payload_eq_of_words htdl htdh)

/-- Settles O23: the fields of a legal frame are read back from its words. -/
theorem serializerLaws : Obligations.SerializerLaws := by
  refine ⟨fun f g hf hg => ⟨serialWords_injective hf hg, congrArg serialWords⟩, fun f hf => ?_⟩
  obtain ⟨hext, hrtr, htxrq⟩ := getLsbD_idWord f
  obtain ⟨hstd, hexd⟩ := identifier_idWord hf
  have hlen : (tdtWord f).toNat ≤ 8 := by
    rw [tdtWord_eq, BitVec.toNat_setWidth]
    exact (Nat.mod_le _ _).trans hf.1
  exact ⟨extractLsb'_tdtWord f, hext, hrtr, hstd, hexd, htxrq, hlen, fun _ hk => getLsbD_tdtWord_high f hk⟩

/-- Settles O18, from the frame-operand check and the words in concatenation form. -/
theorem serializeReturnsWords : Obligations.SerializeReturnsWords := by
  refine fun f s hs => ⟨rfl, fun hf => ?_, accept_checkFrame_illegal _ hs⟩
  have htdt : tdtWord f = 0#28 ++ f.len := by
    refine BitVec.eq_of_toNat_eq ?_
    rw [tdtWord_eq, BitVec.toNat_setWidth, BitVec.toNat_append, BitVec.toNat_ofNat, Nat.zero_mod, Nat.zero_shiftLeft,
      Nat.zero_or, Nat.mod_eq_of_lt (by omega)]
  have hexec := accept_checkFrame_legal
    (fun g => .words (tdtWord g.raw) (idWord g.raw) (tdlWord g.raw) (tdhWord g.raw)) hs hf
  rw [htdt, idWord_eq, tdlWord, tdhWord, laneWord_eq, laneWord_eq] at hexec
  exact hexec

end Sys2Proof.Proofs

/-! The peripheral's registers and the prescaler: what `Complete` and a bus write leave (R52, R55, R56), the address map
(R66), and the prescaler in the operands' numbers (R161, R162, R165). -/

namespace Sys2Proof.Proofs

open Sys2Proof.Machine Sys2Proof.Safety Sys2Proof.Laws

/-! `Complete(m)` (R52). -/

/-- Clearing TXRQ clears bit 0 (R44). -/
theorem fieldClear_txrq (w : Word) : fieldClear layout.txrq w = w &&& 0xFFFFFFFE#32 := by
  have hmask : ~~~ fieldMask layout.txrq = 0xFFFFFFFE#32 := by decide
  rw [fieldClear, hmask]

/-- The outcome bits of mailbox m are four from bit 8 m up (R42). -/
theorem outcomeField_eq (m : MailboxIndex) : outcomeField m = ⟨8 * m.val, 4⟩ := by
  revert m
  decide

/-- The outcome bits read from TSR are those the move carries (R42, R52). -/
theorem outcome_completeBox {p : Periph} {m : MailboxIndex} (hp : (getBox p m).mbs = .pending) (o : BitVec 4)
    (a b c d : Word) : (tsrValue (completeBox m o a b c d p)).extractLsb' (8 * m.val) 4 = o := by
  refine BitVec.eq_of_getLsbD_eq fun i hi => ?_
  have hlow : 8 * m.val + i < 26 := by omega
  have hword : 8 * m.val + i < 32 ∧ i < 32 := by omega
  rw [BitVec.getLsbD_extractLsb', decide_eq_true hi, Bool.true_and, getLsbD_tsrValue_other _ (.inl hlow), completeBox,
    if_pos hp, setBox_tsr, outcomeField_eq, BitVec.getLsbD_or, getLsbD_fieldClear, getLsbD_fieldMask, getLsbD_fieldPut]
  simp [hi, hword]

/-- Settles O54: the mailbox is replaced, and the outcome bits of TSR with it. -/
theorem completeEmptiesMailbox : Obligations.CompleteEmptiesMailbox := by
  refine fun p m o a b c d => ⟨fun hp => ?_, fun he => completeBox_of_ne (by simp [he]) o a b c d⟩
  have hsame := getBox_completeBox hp m o a b c d
  rw [if_pos rfl] at hsame
  have hempty : (getBox (completeBox m o a b c d p) m).mbs = .empty := congrArg Mailbox.mbs hsame
  have hflag := emptyFlag_tsrValue (completeBox m o a b c d p) m
  rw [hempty] at hflag
  rw [fieldClear_txrq] at hsame
  exact ⟨hempty, hflag, hsame, outcome_completeBox hp o a b c d,
    fun k hk => (getBox_completeBox hp k o a b c d).trans (if_neg hk), completeBox_mcr m o a b c d p,
    completeBox_msr m o a b c d p, completeBox_btr m o a b c d p⟩

/-! Bus writes (R55, R56). -/

/-- A write to a register of a Pending mailbox is a fault of the model (R56, U4). -/
theorem writeBox_pending {p : Periph} {m : MailboxIndex} (hp : (getBox p m).mbs = .pending) (b : Mailbox) :
    writeBox p m b = .error (.writeToPendingMailbox m) := by
  rw [writeBox, hp, if_neg MailboxState.noConfusion]

/-- A write to BTR stores exactly in initialization mode (R55). -/
theorem writeReg_btr (p : Periph) (v : Word) :
    writeReg p .btr v = .ok (if p.msr.getLsbD 0 then { p with btr := v } else p) := rfl

/-- Settles O56, register by register. -/
theorem busWriteEffects : Obligations.BusWriteEffects := by
  refine fun p m v => ⟨rfl, fun h => ?_, fun h => ?_, fun he => ?_, fun hp r hr => ?_⟩
  · rw [writeReg_btr, h, if_pos rfl]
  · rw [writeReg_btr, h, if_neg Bool.false_ne_true]
  · have hstore (b : Mailbox) : writeBox p m b = .ok (setBox p m b) := writeBox_ok.mpr ⟨he, rfl⟩
    exact ⟨hstore _, hstore _, hstore _, hstore _⟩
  · simp only [List.mem_cons, List.not_mem_nil, or_false] at hr
    rcases hr with rfl | rfl | rfl | rfl <;> exact writeBox_pending hp _

/-- Settles O57, address by address. -/
theorem registerAddresses : Obligations.RegisterAddresses := by
  unfold Obligations.RegisterAddresses
  decide

/-! The prescaler (R161, R162). -/

/-- Settles O24, case by case. -/
theorem prescalerFunction : Obligations.PrescalerFunction := by
  intro clock baud
  rw [prescaler_eq]
  refine ⟨fun hb => if_pos hb, fun hb hq => ?_, fun hb hq => ?_, fun hb hlow hhigh => ?_⟩
  · rw [if_neg hb, if_pos hq]
  · rw [if_neg hb, if_neg (by omega), if_pos hq]
  · refine ⟨BitVec.ofNat 32 (clock.toNat / (baud.toNat * 16)), ?_, ?_⟩
    · rw [if_neg hb, if_neg (by omega), if_neg (by omega)]
    · rw [BitVec.toNat_ofNat, Nat.mod_eq_of_lt (by omega)]

/-- A clock below sixteen times the baud rate is refused (R161). -/
theorem prescaler_zero {clock baud : Word} (hb : baud ≠ 0#32) (h : clock.toNat < 16 * baud.toNat) :
    prescaler clock baud = .error ⟨.prescalerZero, 0#32⟩ :=
  (prescalerFunction clock baud).2.1 hb (Nat.div_eq_of_lt (by omega))

/-- Settles O25, each corner by the size of the quotient. -/
theorem prescalerCorners : Obligations.PrescalerCorners := by
  intro clock baud
  have hnonzero (h : 0 < baud.toNat) : baud ≠ 0#32 := by
    rintro rfl
    exact absurd h (by decide)
  have hpos (hb : baud ≠ 0#32) : 0 < baud.toNat := Nat.pos_of_ne_zero fun h => hb (BitVec.eq_of_toNat_eq h)
  refine ⟨fun hbig => prescaler_zero (hnonzero (by omega)) (by omega), fun hb hc => prescaler_zero hb ?_,
    fun hb hc => prescaler_zero hb hc, fun hb hc => ?_, fun p hp => ?_⟩
  · have := hpos hb
    rw [hc, BitVec.toNat_ofNat]
    omega
  · have hquotient : clock.toNat / (baud.toNat * 16) = 1 := by
      rw [hc, Nat.mul_comm, Nat.div_self (by have := hpos hb; omega)]
    rw [prescaler_eq, if_neg hb, hquotient]
    rfl
  · obtain ⟨hlow, hhigh⟩ := prescaler_range hp
    have hbound : params.prescBound = 512 := rfl
    have hsub := toNat_sub_one hlow
    omega

/-- BTR_ENCODE on operands with a prescaler (R165). -/
theorem exec_btrEncode_ok {clock baud p : Word} {s : State} (hs : Ready s) (hp : prescaler clock baud = .ok p) :
    exec (.btrEncode clock baud) s = .next (completed s (.word (btrWord p))) := by
  rw [exec, execBtrEncode, hp]
  exact accept_finish_ok _ hs

/-- BTR_ENCODE on operands without one (R165). -/
theorem exec_btrEncode_error {clock baud : Word} {x : FaultRaise} {s : State} (hs : Ready s)
    (hx : prescaler clock baud = .error x) :
    exec (.btrEncode clock baud) s = .next (faulted s x.code x.info) := by
  rw [exec, execBtrEncode, hx]
  exact accept_finish_error _ hs

/-- Settles O27, from the prescaler's four cases and the timing word. -/
theorem btrEncodeReturnsTimingWord : Obligations.BtrEncodeReturnsTimingWord := by
  intro clock baud s hs
  obtain ⟨hzeroBaud, hzero, hover, hfit⟩ := prescalerFunction clock baud
  refine ⟨rfl, fun hb => exec_btrEncode_error hs (hzeroBaud hb), fun hb hq => exec_btrEncode_error hs (hzero hb hq),
    fun hb hq => exec_btrEncode_error hs (hover hb hq), fun hb hlow hhigh => ?_⟩
  obtain ⟨p, hp, hquotient⟩ := hfit hb hlow hhigh
  have hlow' : 1 ≤ p.toNat := by omega
  have hbrp : p - 1#32 = BitVec.ofNat 32 (clock.toNat / (baud.toNat * 16) - 1) := by
    refine BitVec.eq_of_toNat_eq ?_
    rw [toNat_sub_one hlow', hquotient, BitVec.toNat_ofNat, Nat.mod_eq_of_lt (by omega)]
  rw [exec_btrEncode_ok hs hp, btrWord_or hlow' (by omega), hbrp]

end Sys2Proof.Proofs

/-! Steps and commands, one at a time (R11, R12, R93, R171 to R176, R191 to R202). -/

namespace Sys2Proof.Proofs

open Sys2Proof.Machine Sys2Proof.Safety Sys2Proof.Laws

/-! Whose turn it is (R12). -/

/-- A step takes the next of the turns to come. -/
theorem step_of_turns {s : State} {t : Turn} {ts : List Turn} (h : s.turns = t :: ts) :
    step s = runTurn t { s with turns := ts } := by
  rw [step, takeTurn, h]

/-- With no turn to come a step takes the free value (log 2). -/
theorem step_of_no_turns {s : State} (h : s.turns = []) :
    step s = runTurn (Config.freeTurn s.draws) { s with draws := s.draws + 1 } := by
  rw [step, takeTurn, h]

/-- Settles O5. -/
theorem stepMovesScheduledAgent : Obligations.StepMovesScheduledAgent :=
  ⟨fun _ _ _ => step_of_turns, fun _ => step_of_no_turns⟩

/-! Acceptance (R93). -/

/-- From IDLE the record on the port is executed. -/
theorem seqStep_of_cmd {s : State} {r : CmdRecord} {i : Instr} (hph : s.ph = .idle) (hcmd : s.cmd = some r)
    (hdecode : decode r = .ok i) : seqStep s = exec i s := by
  simp only [seqStep, hph, stepIdle, hcmd, hdecode]

/-- From IDLE a reserved opcode is accepted like a command (R110). -/
theorem seqStep_of_reserved {s : State} {r : CmdRecord} {op : BitVec 4} (hph : s.ph = .idle) (hcmd : s.cmd = some r)
    (hdecode : decode r = .error (.reservedOpcode op)) : seqStep s = execReserved op s := by
  simp only [seqStep, hph, stepIdle, hcmd, hdecode]

/-- From IDLE with no record on the port nothing happens (log 3). -/
theorem seqStep_of_no_cmd {s : State} (hph : s.ph = .idle) (hcmd : s.cmd = none) : seqStep s = .next s := by
  simp only [seqStep, hph, stepIdle, hcmd]

/-- What the decoder reads from a word of the opcode table. -/
theorem decode_of_decodeTableWord {nbits w : Nat} {i : Instr} (h : decodeTableWord nbits w = some i) :
    decode (tableRecord nbits w) = .ok i := by
  unfold decodeTableWord at h
  split at h
  next j hj => injection h with h; rw [hj, h]
  next => cases h

/-- Settles O6: a ready block is in IDLE, and so is one in which a record was placed. -/
theorem stepRunsPresentedCommand : Obligations.StepRunsPresentedCommand := by
  refine ⟨fun s ts r i hs hturns hcmd hdecode => ?_, fun s nbits w i h => ?_⟩
  · rw [step_of_turns hturns]
    exact seqStep_of_cmd hs.1 hcmd hdecode
  · have hturns : (s.withFetchWord nbits w).turns = .seq :: s.turns := rfl
    have hseq := seqStep_of_cmd
      (s := { s with cmd := some (tableRecord nbits w), ph := .idle, busy := false, fault := false })
      rfl rfl (decode_of_decodeTableWord h)
    exact (step_of_turns hturns).trans hseq

/-- Settles O7: acceptance of a reserved opcode is the fault entry of IllegalCommand. -/
theorem reservedCommandFaults : Obligations.ReservedCommandFaults := by
  intro s r hs hcmd hop
  refine ⟨?_, rfl⟩
  rw [seqStep_of_reserved hs.1 hcmd (decode_reserved hop)]
  exact accept_ready _ s ((canAccept_iff s).mpr hs)

/-- A command presented to a block that is not ready waits (R93). -/
theorem accept_not_ready (body : State → State) {s : State} (hs : ¬ Ready s) : accept body s = .next s :=
  accept_waits body s (Bool.eq_false_iff.mpr (mt (canAccept_iff s).mp hs))

/-- Settles O8: every command is one acceptance step. -/
theorem commandsWaitUntilReady : Obligations.CommandsWaitUntilReady := by
  refine ⟨fun i s hs => ?_, fun op s hs => accept_not_ready _ hs, fun s hph hcmd => seqStep_of_no_cmd hph hcmd⟩
  cases i <;> exact accept_not_ready _ hs

/-- CONFIGURE runs in the state that acceptance leaves (R171). -/
theorem exec_configure_ready (clock baud : Word) {s : State} (hs : Ready s) :
    exec (.configure clock baud) s = .next (acceptConfigure clock baud (accepted s)) :=
  accept_ready _ s ((canAccept_iff s).mpr hs)

/-- TRANSMIT runs in the state that acceptance leaves (R191). -/
theorem exec_transmit_ready (f : RawFrame) {s : State} (hs : Ready s) :
    exec (.transmit f) s = .next (acceptTransmit f (accepted s)) :=
  accept_ready _ s ((canAccept_iff s).mpr hs)

/-- CONFIGURE accepted unconfigured with a prescaler latches it (R171). -/
theorem exec_configure_ok {clock baud p : Word} {s : State} (hs : Ready s) (hcfg : s.cfg = false)
    (hp : prescaler clock baud = .ok p) :
    exec (.configure clock baud) s =
      .next { s with cmd := none, result := none, busy := true, pre := p, ph := .cfEn } := by
  have hcfg' : ¬ (accepted s).cfg = true := Bool.eq_false_iff.mp hcfg
  rw [exec_configure_ready clock baud hs, acceptConfigure, if_neg hcfg', hp]
  rfl

/-- CONFIGURE accepted unconfigured without a prescaler raises the prescaler's fault (R171). -/
theorem exec_configure_error {clock baud : Word} {x : FaultRaise} {s : State} (hs : Ready s) (hcfg : s.cfg = false)
    (hx : prescaler clock baud = .error x) :
    exec (.configure clock baud) s = .next (faulted s x.code x.info) := by
  have hcfg' : ¬ (accepted s).cfg = true := Bool.eq_false_iff.mp hcfg
  rw [exec_configure_ready clock baud hs, acceptConfigure, if_neg hcfg', hx]
  rfl

/-- Settles O29: CFG is looked at before the operands. -/
theorem configureAcceptance : Obligations.ConfigureAcceptance := by
  refine fun clock baud s hs => ⟨fun hcfg => ?_, fun hcfg x => exec_configure_error hs hcfg,
    fun hcfg p => exec_configure_ok hs hcfg⟩
  have hcfg' : (accepted s).cfg = true := hcfg
  rw [exec_configure_ready clock baud hs, acceptConfigure, if_pos hcfg']
  rfl

/-- TRANSMIT of a legal frame accepted in a configured block latches it (R191). -/
theorem exec_transmit_legal {f : RawFrame} {s : State} (hs : Ready s) (hcfg : s.cfg = true) (hf : LegalFrame f) :
    exec (.transmit f) s = .next { s with cmd := none, result := none, busy := true, fl := f, ph := .txTsrRd } := by
  have hcfg' : (accepted s).cfg = true := hcfg
  rw [exec_transmit_ready f hs, acceptTransmit, if_pos hcfg', checkFrame_of_wf f ((wf_iff_legalFrame f).mpr hf)]
  rfl

/-- TRANSMIT of an illegal frame accepted in a configured block raises the frame check's fault (R191). -/
theorem exec_transmit_illegal {f : RawFrame} {s : State} (hs : Ready s) (hcfg : s.cfg = true) (hf : ¬ LegalFrame f) :
    exec (.transmit f) s =
      .next (faulted s .invalidFrameParameters (frameFaultInfo f.ext f.id f.len.toNat)) := by
  have hcfg' : (accepted s).cfg = true := hcfg
  have hwf : f.wf = false := Bool.eq_false_iff.mpr (mt (wf_iff_legalFrame f).mp hf)
  rw [exec_transmit_ready f hs, acceptTransmit, if_pos hcfg', checkFrame_of_not_wf f hwf, frameFaultInfo_eq]
  rfl

/-- Settles O38: CFG is looked at before the frame. -/
theorem transmitAcceptance : Obligations.TransmitAcceptance := by
  refine fun f s hs => ⟨fun hcfg => ?_, exec_transmit_illegal hs, exec_transmit_legal hs⟩
  have hcfg' : ¬ (accepted s).cfg = true := Bool.eq_false_iff.mp hcfg
  rw [exec_transmit_ready f hs, acceptTransmit, if_neg hcfg']
  rfl

/-! Legal operands and faults (R111). -/

/-- The frame-operand check passes exactly the well-formed frames (R137). -/
theorem isOk_checkFrame (f : RawFrame) : (checkFrame f).isOk = f.wf := by
  cases h : f.wf
  · rw [checkFrame_of_not_wf f h]
    rfl
  · rw [checkFrame_of_wf f h]
    rfl

/-- FRAME_NEW passes exactly its legal operands (R111 (a), R131). -/
theorem isOk_newFrame (id n : Word) (data : Payload) (remote extended : Bool) :
    (newFrame id n data remote extended).isOk = wellFormedNew id n extended := by
  rw [wellFormedNew, operand_nw, ← Bool.not_or]
  cases h : (badId extended id || badLen n.toNat)
  · obtain ⟨f, hf, _⟩ := newFrame_ok data remote h
    rw [hf]
    rfl
  · rw [newFrame_error data remote h]
    rfl

/-- The prescaler passes exactly its legal operands (R111 (c), R161). -/
theorem isOk_prescaler (clock baud : Word) : (prescaler clock baud).isOk = wellFormedTiming clock baud := by
  simp only [prescaler, wellFormedTiming, operand_bw]
  split_ifs with h0 h1 h2
  · simp [h0, Except.isOk, Except.toBool]
  · simp [h1, Except.isOk, Except.toBool]
  · simp [h2, Except.isOk, Except.toBool]
  · have h3 : 1 ≤ quotient clock baud := Nat.one_le_iff_ne_zero.mpr h1
    simp [h0, h3, Nat.not_le.mp h2, Except.isOk, Except.toBool]

/-- A pure command faults exactly when its operands do not pass (R10, R111). -/
theorem accept_finish_fault {α : Type} (read : α → Result) {r : Except FaultRaise α} {passes : Bool} {s : State}
    (hs : Ready s) (hr : r.isOk = passes) :
    ∃ t, accept (finish (r.map read)) s = .next t ∧ (t.fault = true ↔ passes = false) := by
  have hfault : s.fault = false := hs.2.2
  subst hr
  cases r with
  | ok v => exact ⟨_, accept_finish_ok (read v) hs, iff_of_false (by simp [completed, hfault]) nofun⟩
  | error x => exact ⟨_, accept_finish_error x hs, iff_of_true rfl rfl⟩

/-- Settles O45: each command faults exactly when its operand check does not pass. -/
theorem faultExactlyOnIllegalOperands : Obligations.FaultExactlyOnIllegalOperands := by
  intro i s hs hconfigure htransmit
  have hfault : s.fault = false := hs.2.2
  cases i with
  | frameNew id n data remote extended =>
    exact accept_finish_fault _ hs (isOk_newFrame id n data remote extended)
  | frameId f | frameIsExtended f | frameIsRtr f | frameData f | serialize f =>
    exact accept_finish_fault _ hs (isOk_checkFrame f)
  | btrEncode clock baud => exact accept_finish_fault _ hs (isOk_prescaler clock baud)
  | configure clock baud =>
    have hcfg := hconfigure clock baud rfl
    have hwf : (Instr.configure clock baud).wellFormed = (prescaler clock baud).isOk := (isOk_prescaler clock baud).symm
    rw [hwf]
    cases hp : prescaler clock baud with
    | ok p => exact ⟨_, exec_configure_ok hs hcfg hp, iff_of_false (by simp [hfault]) nofun⟩
    | error x => exact ⟨_, exec_configure_error hs hcfg hp, iff_of_true rfl rfl⟩
  | transmit f =>
    have hcfg := htransmit f rfl
    by_cases hf : LegalFrame f
    · have hwf : (Instr.transmit f).wellFormed = true := (wf_iff_legalFrame f).mpr hf
      exact ⟨_, exec_transmit_legal hs hcfg hf, iff_of_false (by simp [hfault]) (by simp [hwf])⟩
    · exact ⟨_, exec_transmit_illegal hs hcfg hf, iff_of_true rfl
        (Bool.eq_false_iff.mpr (mt (wf_iff_legalFrame f).mp hf))⟩

/-! The phases of CONFIGURE (R172 to R176). -/

/-- After the reset pulse TSR reads with all three empty flags set (R48, R50). -/
theorem tsrValue_periphAfterReset (n : Nat) : tsrValue (periphAfterReset n) = 0x1C000000#32 := by
  have hflag (m : MailboxIndex) :
      emptyWord (periphAfterReset n) m = fieldPut (fieldShift layout.tme m.val) (flagWord true) := by
    rw [emptyWord, getBox_periphAfterReset]
    rfl
  have hvalue : fieldClear layout.tme layout.tsrReset ||| fieldPut (fieldShift layout.tme 0) (flagWord true) |||
      fieldPut (fieldShift layout.tme 1) (flagWord true) ||| fieldPut (fieldShift layout.tme 2) (flagWord true) =
      0x1C000000#32 := by decide
  rw [tsrValue, hflag, hflag, hflag]
  exact hvalue

/-- Settles O30: the three bus-control steps, and what the assertion of the reset line leaves. -/
theorem configureResetPulse : Obligations.ConfigureResetPulse := by
  refine ⟨fun s hph => (PhaseStep.enable hph).seqStep_eq, fun s hph => ?_,
    fun s hph => (PhaseStep.deassertReset hph).seqStep_eq⟩
  refine ⟨periphAfterReset s.draws, (PhaseStep.assertReset hph).seqStep_eq, rfl, rfl,
    tsrValue_periphAfterReset _, rfl, fun m => ?_⟩
  rw [getBox_periphAfterReset]
  exact ⟨rfl, txrq_mailboxAfterReset _⟩

/-- Settles O31, from the reads and the writes of MCR. -/
theorem configureRequestWrites : Obligations.ConfigureRequestWrites := by
  refine ⟨fun s p q hb hpq hph => ?_, fun s p q v hb hpqv hph => ?_⟩
  · have hq : McrRead s.ph q := by
      simp only [List.mem_cons, List.not_mem_nil, or_false, Prod.mk.injEq] at hpq
      rw [hph]
      rcases hpq with ⟨rfl, rfl⟩ | ⟨rfl, rfl⟩ | ⟨rfl, rfl⟩
      · exact .wake
      · exact .init
      · exact .exit
    exact (PhaseStep.readMcr hb hq).seqStep_eq
  · have hq : McrWrite s.mcrv s.ph q v := by
      rw [← wakeWord_eq, ← initWord_eq, ← exitWord_eq] at hpqv
      simp only [List.mem_cons, List.not_mem_nil, or_false, Prod.mk.injEq] at hpqv
      rw [hph]
      rcases hpqv with ⟨rfl, rfl, rfl⟩ | ⟨rfl, rfl, rfl⟩ | ⟨rfl, rfl, rfl⟩
      · exact .wake
      · exact .init
      · exact .exit
    exact (PhaseStep.writeMcr hb hq).seqStep_eq

/-- Settles O32: the timing write, with INAK deciding what it stores. -/
theorem configureTimingWrite : Obligations.ConfigureTimingWrite := by
  intro s hb hph hlow hhigh
  have hstep := (PhaseStep.writeBtr hb hph).seqStep_eq
  rw [btrWord_or hlow hhigh] at hstep
  refine ⟨fun hinak => ?_, fun hinak => ?_⟩
  · have hbit : fieldBit layout.inak s.periph.msr = true := hinak
    rwa [hbit, if_pos rfl] at hstep
  · have hbit : fieldBit layout.inak s.periph.msr = false := hinak
    rwa [hbit, if_neg Bool.false_ne_true] at hstep

/-- Settles O33, poll by poll. -/
theorem configurePolls : Obligations.ConfigurePolls := by
  refine fun s hb => ⟨fun hph => ?_, fun hph => ?_, fun hph hinak => ?_, fun hph hinak => ?_⟩
  · cases hslak : s.periph.msr.getLsbD 1
    · exact seqStep_poll hb (by rw [hph]; exact .wakeExit ((Bool.not_eq_true' _).mpr hslak))
    · exact seqStep_poll hb (by rw [hph]; exact .wakeAgain ((Bool.not_eq_false' _).mpr hslak))
  · cases hinak : s.periph.msr.getLsbD 0
    · exact seqStep_poll hb (by rw [hph]; exact .initAgain hinak)
    · exact seqStep_poll hb (by rw [hph]; exact .initExit hinak)
  · have hpoll : Poll s.periph.msr s.ph s.ph := by
      rw [hph]
      exact .exitAgain ((Bool.not_eq_false' _).mpr hinak)
    exact seqStep_poll hb hpoll
  · exact (PhaseStep.configured hb hph ((Bool.not_eq_true' _).mpr hinak)).seqStep_eq

/-! FRAME_NEW (R131). -/

/-- Settles O11: the frame is R131's, and its buffer is the slice padded. -/
theorem frameNewConstructs : Obligations.FrameNewConstructs := by
  intro id n data remote extended s hs hid hn
  obtain ⟨f, hraw, hexec⟩ := exec_frameNew_legal data remote hs hid hn
  refine ⟨f, hexec, ?_⟩
  rw [hraw]
  refine ⟨rfl, rfl, rfl, newRaw_len_toNat id data remote extended hn, fun i hi => ?_⟩
  rw [newRaw_data, payloadByte_payloadPadded n.toNat data hi]

/-- Settles O12, from FRAME_NEW's two tests. -/
theorem frameNewRefuses : Obligations.FrameNewRefuses :=
  fun _ _ data remote _ _ hs hbad => exec_frameNew_illegal data remote hs hbad

/-! The phases of TRANSMIT (R192 to R202). -/

/-- Settles O39, from the selection on the value read. -/
theorem transmitStatusRead : Obligations.TransmitStatusRead :=
  fun _ hb hph => ⟨fun _ he hlow => (PhaseStep.selected hb hph (selectMailbox_lowest he hlow)).seqStep_eq,
    fun hp => (PhaseStep.dropped hb hph (selectMailbox_none hp)).seqStep_eq⟩

/-- Settles O40, write by write. -/
theorem transmitDataWrites : Obligations.TransmitDataWrites := by
  refine fun s hb he => ⟨fun hph => ?_, fun hph w hw => ?_, fun hph w hw => ?_, fun hph w hw => ?_⟩
  · rw [← tdtWord_eq]
    exact seqStep_dataWrite hb he (hph ▸ .length)
  · rw [hw, ← idWord_eq]
    exact seqStep_dataWrite hb he (hph ▸ .identifier)
  · rw [hw, ← laneWord_eq]
    exact seqStep_dataWrite hb he (hph ▸ .low)
  · rw [hw, ← laneWord_eq]
    exact seqStep_dataWrite hb he (hph ▸ .high)

/-- Settles O41, from the request write. -/
theorem transmitRequestWrite : Obligations.TransmitRequestWrite := by
  intro s hb he hph
  rw [← requestWord_eq]
  exact (PhaseStep.queued hb he hph).seqStep_eq

end Sys2Proof.Proofs

/-! Whole-machine rules: what each turn can change (R23, R24, R29, R50 to R52, R73, R76, R194, R231). -/

namespace Sys2Proof.Proofs

open Sys2Proof.Machine Sys2Proof.Safety Sys2Proof.Laws

/-! What acceptance leaves alone. -/

/-- The parts of the state that no acceptance step writes: CFG, LASTTX and the peripheral (R171, R191, R229). -/
def lasting (s : State) : Bool × LastTx × Periph := (s.cfg, s.lastTx, s.periph)

/-- The end of a pure command (R10). -/
theorem lasting_finish (r : Except FaultRaise Result) (s : State) : lasting (finish r s) = lasting s := by
  cases r <;> rfl

/-- The acceptance of CONFIGURE (R171). -/
theorem lasting_acceptConfigure (clock baud : Word) (s : State) :
    lasting (acceptConfigure clock baud s) = lasting s := by
  unfold acceptConfigure
  split
  · rfl
  · split <;> rfl

/-- The acceptance of TRANSMIT (R191). -/
theorem lasting_acceptTransmit (f : RawFrame) (s : State) : lasting (acceptTransmit f s) = lasting s := by
  unfold acceptTransmit
  split
  · split <;> rfl
  · rfl

/-- An acceptance step leaves alone what the command's part does (R93). -/
theorem lasting_accept {body : State → State} (hbody : ∀ s, lasting (body s) = lasting s) {s t : State}
    (h : accept body s = .next t) : lasting t = lasting s := by
  rcases accept_next h with ⟨_, rfl⟩ | ⟨_, rfl⟩
  · exact hbody _
  · rfl

/-- The acceptance step of a command (R229). -/
theorem lasting_exec {i : Instr} {s t : State} (h : exec i s = .next t) : lasting t = lasting s := by
  cases i with
  | configure clock baud => exact lasting_accept (lasting_acceptConfigure clock baud) h
  | transmit f => exact lasting_accept (lasting_acceptTransmit f) h
  | frameNew | frameId | frameIsExtended | frameIsRtr | frameData | serialize | btrEncode =>
    exact lasting_accept (lasting_finish _) h

/-- A step of SEQ is acceptance, which leaves CFG, LASTTX and the peripheral alone, or a later step of a command. -/
theorem seqStep_cases {s t : State} (h : seqStep s = .next t) : lasting t = lasting s ∨ PhaseStep s t := by
  by_cases hph : s.ph = .idle
  · rw [seqStep, hph] at h
    rcases stepIdle_next h with rfl | ⟨i, hi⟩ | ⟨op, hop⟩
    · exact .inl rfl
    · exact .inl (lasting_exec hi)
    · exact .inl (lasting_accept (body := raise (illegalCommand op)) (fun _ => rfl) hop)
  · exact .inr (phaseStep_of_seqStep hph h)

/-! The command port (R76). -/

/-- No later step of a command touches the command port. -/
theorem cmd_phaseStep {s t : State} (h : PhaseStep s t) : t.cmd = s.cmd := by
  cases h <;> rfl

/-- The later steps of a command are the same whatever stands on the command port. -/
theorem phaseStep_withCmd {s t : State} (c : Option CmdRecord) (h : PhaseStep s t) :
    PhaseStep { s with cmd := c } { t with cmd := c } := by
  cases h with
  | halted hph => exact .halted hph
  | enable hph => exact .enable hph
  | assertReset hph => exact .assertReset hph
  | deassertReset hph => exact .deassertReset hph
  | readMcr hb hq => exact .readMcr hb hq
  | writeMcr hb hq => exact .writeMcr hb hq
  | poll hb hq => exact .poll hb hq
  | writeBtr hb hph => exact .writeBtr hb hph
  | configured hb hph hleft => exact .configured hb hph hleft
  | selected hb hph hm => exact .selected hb hph hm
  | dropped hb hph hm => exact .dropped hb hph hm
  | dataWrite hb he hq => exact .dataWrite hb he hq
  | queued hb he hph => exact .queued hb he hph

/-- Settles O9: the relation of the later steps does not speak of the command port. -/
theorem laterStepsIgnoreCommandPort : Obligations.LaterStepsIgnoreCommandPort := by
  intro s t c hph h
  have hstep := phaseStep_of_seqStep hph h
  exact ⟨cmd_phaseStep hstep, (phaseStep_withCmd c hstep).seqStep_eq⟩

/-! The bits that no rule names (U9). -/

/-- The selection looks at the mailbox states alone (R194). -/
theorem selectMailbox_withTsr (p : Periph) (w : Word) :
    selectMailbox (tsrValue { p with tsr := w }) = selectMailbox (tsrValue p) := by
  simp only [selectMailbox, emptyFlag_tsrValue, getBox_tsr]

/-- A status read on other bits of TSR goes the same way (R194). -/
theorem statusRead_withTsr {s t : State} (w : Word) (hph : s.ph = .txTsrRd) (h : seqStep s = .next t) :
    ∃ t', seqStep (storePeriph { s.periph with tsr := w } s) = .next t' ∧ t'.ph = t.ph ∧ t'.mb = t.mb ∧
      t'.lastTx = t.lastTx ∧ t'.result = t.result ∧ t'.busy = t.busy := by
  rw [seqStep, hph] at h
  obtain ⟨hb, rfl⟩ := stepTxTsrRd_next h
  have hselect := selectMailbox_withTsr s.periph w
  unfold choose
  split
  next hm =>
    exact ⟨_, (PhaseStep.dropped (s := storePeriph { s.periph with tsr := w } s) hb hph
      (hselect.trans hm)).seqStep_eq, rfl, rfl, rfl, rfl, rfl⟩
  next m hm =>
    exact ⟨_, (PhaseStep.selected (s := storePeriph { s.periph with tsr := w } s) hb hph
      (hselect.trans hm)).seqStep_eq, rfl, rfl, rfl, rfl, rfl⟩

/-- A poll on other bits of MSR goes the same way, if its continuation looks at INAK and SLAK alone (R107). -/
theorem pollMsr_withMsr {k : Word → State → State} {s t : State} (w : Word) (h : pollMsr k s = .next t)
    (hk : ∀ u u' : State, u'.cfg = u.cfg ∧ u'.busy = u.busy ∧ u'.result = u.result →
      (k w u').ph = (k s.periph.msr u).ph ∧ (k w u').cfg = (k s.periph.msr u).cfg ∧
        (k w u').busy = (k s.periph.msr u).busy ∧ (k w u').result = (k s.periph.msr u).result) :
    ∃ t', pollMsr k (storePeriph { s.periph with msr := w } s) = .next t' ∧ t'.ph = t.ph ∧ t'.cfg = t.cfg ∧
      t'.busy = t.busy ∧ t'.result = t.result := by
  obtain ⟨hb, rfl⟩ := pollMsr_next h
  exact ⟨_, pollMsr_ready (s := storePeriph _ s) k hb, hk _ _ ⟨rfl, rfl, rfl⟩⟩

/-- Settles O47: the selection follows the mailbox states, and the polls INAK and SLAK. -/
theorem unnamedStatusBitsIgnored : Obligations.UnnamedStatusBitsIgnored := by
  refine ⟨fun s t w hph h => statusRead_withTsr w hph h, fun s t w hph h hinak hslak => ?_⟩
  have hwake : wakeDone w = wakeDone s.periph.msr := congrArg not hslak
  have henter : Machine.initEntered w = Machine.initEntered s.periph.msr := hinak
  have hleave : initLeft w = initLeft s.periph.msr := congrArg not hinak
  unfold seqStep at h ⊢
  rw [storePeriph_ph]
  rcases hph with hph | hph | hph <;> rw [hph] at h ⊢
  · exact pollMsr_withMsr w h fun u u' hu => ⟨by rw [hwake], hu⟩
  · exact pollMsr_withMsr w h fun u u' hu => ⟨by rw [henter], hu⟩
  · refine pollMsr_withMsr w h fun u u' ⟨hcfg, hbusy, hresult⟩ => ?_
    rw [hleave]
    split
    · exact ⟨rfl, rfl, rfl, rfl⟩
    · exact ⟨rfl, hcfg, hbusy, hresult⟩

/-! HALT and block reset (R29, R231). -/

/-- A record offered changes the command port at most (R275). -/
theorem hostMove_offer (r : CmdRecord) (s : State) : ∃ c, hostMove (.offer r) s = { s with cmd := c } := by
  simp only [hostMove]
  split
  · exact ⟨_, rfl⟩
  · exact ⟨s.cmd, rfl⟩

/-- What a turn can do: an acceptance or a later step of SEQ, one of HOST's two moves, or a turn of PERIPH (R12). -/
theorem runTurn_cases {t : Turn} {s u : State} (h : runTurn t s = .next u) :
    (t = .seq ∧ (lasting u = lasting s ∨ PhaseStep s u)) ∨ (∃ l, t = .host (.blockReset l) ∧ u = blockReset l s) ∨
      (∃ r c, t = .host (.offer r) ∧ u = { s with cmd := c }) ∨ ∃ m, t = .periph m ∧ u = periphTurn m s := by
  cases t with
  | seq => exact .inl ⟨rfl, seqStep_cases h⟩
  | periph m =>
    injection h with h
    exact .inr (.inr (.inr ⟨m, rfl, h.symm⟩))
  | host m =>
    injection h with h
    cases m with
    | blockReset l => exact .inr (.inl ⟨l, rfl, h.symm⟩)
    | offer r =>
      obtain ⟨c, hc⟩ := hostMove_offer r s
      exact .inr (.inr (.inl ⟨r, c, rfl, h.symm.trans hc⟩))

/-- From HALT a turn of SEQ changes nothing (log 27). -/
theorem seqStep_of_halt {s u : State} (hph : s.ph = .halt) (h : seqStep s = .next u) : u = s := by
  rw [seqStep, hph] at h
  injection h with h
  exact h.symm

/-- Settles O48, agent by agent. -/
theorem haltEndsOnlyByReset : Obligations.HaltEndsOnlyByReset := by
  intro t s u hph h hreset
  rcases runTurn_cases h with ⟨rfl, _⟩ | ⟨l, rfl, _⟩ | ⟨r, c, _, rfl⟩ | ⟨m, _, rfl⟩
  · rw [seqStep_of_halt hph h]
  · exact absurd rfl (hreset l)
  · rfl
  · rw [periphTurn_frame m s]
    rfl

/-- Settles O49. -/
theorem blockResetState : Obligations.BlockResetState := fun _ _ => rfl

/-- Settles O50. -/
theorem resetBlockState : Obligations.ResetBlockState :=
  ⟨rfl, rfl, rfl, rfl, rfl, rfl, rfl, ⟨rfl, rfl, rfl⟩, rfl⟩

/-! CFG, LASTTX and the mailbox states. -/

/-- A later step of a command raises CFG or leaves it alone (R23, R176). -/
theorem cfg_phaseStep {s t : State} (h : PhaseStep s t) :
    t.cfg = s.cfg ∨ s.ph = .cfExitPoll ∧ s.periph.msr.getLsbD 0 = false ∧ t.cfg = true := by
  cases h with
  | configured hb hph hleft => exact .inr ⟨hph, (Bool.not_eq_true' _).mp hleft, rfl⟩
  | _ => exact .inl rfl

/-- A later step of a command writes LASTTX with the outcome it presents, or leaves it alone (R24, R202). -/
theorem lastTx_phaseStep {s t : State} (h : PhaseStep s t) :
    t.lastTx = s.lastTx ∨
      (s.ph = .txTsrRd ∧ t.lastTx = .dropped ∧ t.result = some (.outcome .dropped) ∧ t.ph = .idle) ∨
      (s.ph = .txRqWr ∧ t.lastTx = .queued s.mb ∧ t.result = some (.outcome (.queued s.mb)) ∧ t.ph = .idle) := by
  cases h with
  | dropped hb hph hm => exact .inr (.inl ⟨hph, rfl, rfl, rfl⟩)
  | queued hb he hph => exact .inr (.inr ⟨hph, rfl, rfl, rfl⟩)
  | _ => exact .inl rfl

/-- A later step of a command leaves a mailbox's state alone, fills the selected one, or resets all (R50, R51, R57). -/
theorem mbs_phaseStep {s t : State} (h : PhaseStep s t) (m : MailboxIndex) :
    (getBox t.periph m).mbs = (getBox s.periph m).mbs ∨
      (s.ph = .txRqWr ∧ s.mb = m ∧ (getBox t.periph m).mbs = .pending) ∨
      (s.ph = .cfRstA ∧ (getBox t.periph m).mbs = .empty) := by
  cases h with
  | assertReset hph => exact .inr (.inr ⟨hph, by rw [getBox_periphAfterReset]; rfl⟩)
  | writeMcr hb hq => exact .inl (by rw [getBox_mcr])
  | writeBtr hb hph => exact .inl (by split <;> simp)
  | dataWrite hb he hq => 
    refine .inl ?_
    rw [getBox_setBox]
    split
    next hm => 
      subst hm
      generalize s.ph = p at hq
      cases hq <;> rfl
    next => rfl
  | queued hb he hph => 
    rw [getBox_setBox]
    split
    next hm => exact .inr (.inl ⟨hph, hm.symm, rfl⟩)
    next => exact .inl rfl
  | _ => exact .inl rfl

/-- What a turn can do to CFG (R23). -/
theorem cfg_runTurn {t : Turn} {s u : State} (h : runTurn t s = .next u) :
    u.cfg = s.cfg ∨ (t = .seq ∧ s.ph = .cfExitPoll ∧ s.periph.msr.getLsbD 0 = false ∧ u.cfg = true) ∨
      ∃ l, t = .host (.blockReset l) ∧ u.cfg = false := by
  rcases runTurn_cases h with ⟨rfl, hkeep | hstep⟩ | ⟨l, rfl, rfl⟩ | ⟨r, c, _, rfl⟩ | ⟨m, _, rfl⟩
  · exact .inl (congrArg Prod.fst hkeep)
  · rcases cfg_phaseStep hstep with hkeep | hset
    · exact .inl hkeep
    · exact .inr (.inl ⟨rfl, hset⟩)
  · exact .inr (.inr ⟨l, rfl, rfl⟩)
  · exact .inl rfl
  · exact .inl (congrArg State.cfg (periphTurn_frame m s) :)

/-- Settles O51, from what each turn does to CFG. -/
theorem configuredOnlyByConfigure : Obligations.ConfiguredOnlyByConfigure := by
  intro t s u h
  rcases cfg_runTurn h with hkeep | ⟨ht, hph, hinak, hset⟩ | ⟨l, ht, hclear⟩
  · exact ⟨fun h0 h1 => absurd (h0.symm.trans (hkeep.symm.trans h1)) Bool.false_ne_true,
      fun h1 h0 => absurd (h0.symm.trans (hkeep.trans h1)) Bool.false_ne_true⟩
  · exact ⟨fun _ _ => ⟨ht, hph, hinak⟩, fun _ h0 => absurd (h0.symm.trans hset) Bool.false_ne_true⟩
  · exact ⟨fun _ h1 => absurd (hclear.symm.trans h1) Bool.false_ne_true, fun _ _ => ⟨l, ht⟩⟩

/-- Settles O52, turn by turn. -/
theorem lastOutcomeOnlyByTransmit : Obligations.LastOutcomeOnlyByTransmit := by
  intro t s u h hne
  rcases runTurn_cases h with ⟨rfl, hkeep | hstep⟩ | ⟨l, rfl, rfl⟩ | ⟨r, c, _, rfl⟩ | ⟨m, _, rfl⟩
  · exact absurd (congrArg (·.2.1) hkeep) hne
  · rcases lastTx_phaseStep hstep with hkeep | hdropped | hqueued
    · exact absurd hkeep hne
    · exact .inl ⟨rfl, hdropped⟩
    · exact .inr (.inl ⟨rfl, hqueued⟩)
  · exact .inr (.inr ⟨l, rfl, rfl⟩)
  · exact absurd rfl hne
  · exact absurd (congrArg State.lastTx (periphTurn_frame m s)) hne

/-- A turn of PERIPH leaves a mailbox's state alone or completes it (R52). -/
theorem mbs_periphTurn (p : PeriphMove) (s : State) (m : MailboxIndex) :
    (getBox (periphTurn p s).periph m).mbs = (getBox s.periph m).mbs ∨
      (∃ o a b c d, p = .complete m o a b c d) ∧ (getBox (periphTurn p s).periph m).mbs = .empty := by
  rcases periphTurn_cases p s with hturn | hturn <;> rw [hturn]
  · rcases getBox_periphMove_ti_mbs p s.periph m with ⟨_, hkeep⟩ | ⟨hcomplete, _, _, hempty⟩
    · exact .inl hkeep
    · exact .inr ⟨hcomplete, hempty⟩
  · exact .inl rfl

/-- What a turn can do to the state of a mailbox (R50 to R52, R57). -/
theorem mbs_runTurn {t : Turn} {s u : State} (m : MailboxIndex) (h : runTurn t s = .next u) :
    (getBox u.periph m).mbs = (getBox s.periph m).mbs ∨
      (t = .seq ∧ s.ph = .txRqWr ∧ s.mb = m ∧ (getBox u.periph m).mbs = .pending) ∨
      ((∃ o a b c d, t = .periph (.complete m o a b c d)) ∨ t = .seq ∧ s.ph = .cfRstA) ∧
        (getBox u.periph m).mbs = .empty := by
  rcases runTurn_cases h with ⟨rfl, hkeep | hstep⟩ | ⟨l, rfl, rfl⟩ | ⟨r, c, _, rfl⟩ | ⟨p, rfl, rfl⟩
  · exact .inl (congrArg (fun x => (getBox x.2.2 m).mbs) hkeep)
  · rcases mbs_phaseStep hstep m with hkeep | ⟨hph, hmb, hpending⟩ | ⟨hph, hempty⟩
    · exact .inl hkeep
    · exact .inr (.inl ⟨rfl, hph, hmb, hpending⟩)
    · exact .inr (.inr ⟨.inr ⟨rfl, hph⟩, hempty⟩)
  · exact .inl rfl
  · exact .inl rfl
  · rcases mbs_periphTurn p s m with hkeep | ⟨⟨o, a, b, c, d, rfl⟩, hempty⟩
    · exact .inl hkeep
    · exact .inr (.inr ⟨.inl ⟨o, a, b, c, d, rfl⟩, hempty⟩)

/-- Settles O53, from what each turn does to the state of a mailbox. -/
theorem mailboxStateChanges : Obligations.MailboxStateChanges := by
  intro t s u m h
  have hwindow : ∀ p, t = .periph p → writesMailbox s.ph = true → getBox u.periph m = getBox s.periph m ∨
      (getBox s.periph m).mbs = .pending ∧ ∃ o a b c d, p = .complete m o a b c d := by
    rintro p rfl hw
    injection h with h
    exact h ▸ getBox_periphTurn_window p s m hw
  have hne : MailboxState.empty ≠ .pending := MailboxState.noConfusion
  rcases mbs_runTurn m h with hkeep | ⟨rfl, hph, hmb, hpending⟩ | ⟨hcause, hempty⟩
  · exact ⟨fun he hp => absurd (he.symm.trans (hkeep.symm.trans hp)) hne,
      fun hp he => absurd (he.symm.trans (hkeep.trans hp)) hne, hwindow⟩
  · exact ⟨fun _ _ => ⟨rfl, hph, hmb⟩, fun _ he => absurd (he.symm.trans hpending) hne, hwindow⟩
  · exact ⟨fun _ hp => absurd (hempty.symm.trans hp) hne, fun _ _ => hcause, hwindow⟩

end Sys2Proof.Proofs

/-! Runs (R11, R12): how steps chain, and the run of CONFIGURE under its three acknowledges (R170 to R177). -/

namespace Sys2Proof.Proofs

open Sys2Proof.Machine Sys2Proof.Safety Sys2Proof.Laws

/-- One step, and then the others. -/
theorem run_succ {M : Host.Core} {n : Nat} {s t : M.State} (h : M.step s = .next t) : M.run (n + 1) s = M.run n t := by
  rw [Host.Core.run, h]

/-- A run of `m` steps that does not stop goes on from where it ends. -/
theorem run_add {M : Host.Core} {m : Nat} (n : Nat) {s t : M.State} (h : M.run m s = .next t) :
    M.run (m + n) s = M.run n t := by
  induction m generalizing s with
  | zero =>
    injection h with h
    rw [Nat.zero_add, h]
  | succ m ih =>
    rw [Host.Core.run] at h
    split at h
    next r hr => rw [Nat.add_right_comm, run_succ hr, ih h]
    next => cases h
    next => cases h

/-- `n` steps from `s` end in `t`. -/
abbrev Runs (n : Nat) (s t : State) : Prop := Host.Core.run Sys2Proof.core n s = .next t

/-- Runs chain. -/
theorem runs_trans {m n : Nat} {s t u : State} (h : Runs m s t) (hrun : Runs n t u) : Runs (m + n) s u :=
  (run_add n h).trans hrun

/-- A turn of an agent. -/
theorem runs_turn {s t : State} {turn : Turn} {ts : List Turn} (hturns : s.turns = turn :: ts)
    (h : runTurn turn { s with turns := ts } = .next t) : Runs 1 s t :=
  (run_succ (M := Sys2Proof.core) ((step_of_turns hturns).trans h)).trans rfl

/-- A later step of a command. -/
theorem runs_phaseStep {s t : State} {ts : List Turn} (hturns : s.turns = .seq :: ts)
    (h : PhaseStep { s with turns := ts } t) : Runs 1 s t :=
  runs_turn hturns h.seqStep_eq

/-- A run goes on by one turn of an agent. -/
theorem runs_then_turn {n : Nat} {s t u : State} {turn : Turn} {ts : List Turn} (h : Runs n s t)
    (hturns : t.turns = turn :: ts) (hturn : runTurn turn { t with turns := ts } = .next u) : Runs (n + 1) s u :=
  runs_trans h (runs_turn hturns hturn)

/-- A run goes on by one later step of a command. -/
theorem runs_then_step {n : Nat} {s t u : State} {ts : List Turn} (h : Runs n s t) (hturns : t.turns = .seq :: ts)
    (hstep : PhaseStep { t with turns := ts } u) : Runs (n + 1) s u :=
  runs_then_turn h hturns hstep.seqStep_eq

/-- A poll whose acknowledge does not come (R175). -/
theorem runs_polls {n : Nat} {s : State} {rest : List Turn} (hb : busReady s = true)
    (hpoll : Poll s.periph.msr s.ph s.ph) (hturns : s.turns = List.replicate n .seq ++ rest) :
    Runs n s { s with turns := rest, trace := List.replicate n (.read .msr s.periph.msr) ++ s.trace } := by
  induction n generalizing s with
  | zero =>
    rw [List.replicate_zero, List.nil_append] at hturns
    rw [List.replicate_zero, List.nil_append, ← hturns]
    rfl
  | succ n ih =>
    have hfirst := runs_phaseStep hturns (.poll hb hpoll)
    have hothers := ih (s := { s with
      turns := List.replicate n .seq ++ rest, trace := .read .msr s.periph.msr :: s.trace }) hb hpoll rfl
    rw [List.replicate_succ', List.append_assoc, Nat.add_comm]
    exact runs_trans hfirst hothers

/-- A poll goes on while its bit is not as it waits for (R107). -/
theorem poll_unacknowledged {s : State} (h : s.ph = .cfWakePoll ∧ s.periph.msr.getLsbD 1 = true ∨
    s.ph = .cfInitPoll ∧ s.periph.msr.getLsbD 0 = false ∨ s.ph = .cfExitPoll ∧ s.periph.msr.getLsbD 0 = true) :
    Poll s.periph.msr s.ph s.ph := by
  rcases h with ⟨hph, hbit⟩ | ⟨hph, hbit⟩ | ⟨hph, hbit⟩ <;> rw [hph]
  · exact .wakeAgain ((Bool.not_eq_false' _).mpr hbit)
  · exact .initAgain hbit
  · exact .exitAgain ((Bool.not_eq_false' _).mpr hbit)

/-- Settles O35, by induction on the number of polls. -/
theorem unacknowledgedPollHangs : Obligations.UnacknowledgedPollHangs :=
  fun _ _ _ hb hpoll hturns => runs_polls hb (poll_unacknowledged hpoll) hturns

/-! CONFIGURE from its acceptance to its completion. -/

/-- The block while CONFIGURE runs after its reset pulse, begun in `s` with the prescaler `p` (R170). -/
def bringUp (s : State) (p : Word) (ph : Phase) (mcrv mcr msr btr : Word) (tr : List Action) (ts : List Turn) : State :=
  { s with
    cmd := none, result := none, busy := true, pre := p, ph := ph, bcEn := true, bcRst := false, mcrv := mcrv,
    periph := { periphAfterReset s.draws with mcr := mcr, msr := msr, btr := btr }, draws := s.draws + 12, trace := tr,
    turns := ts }

section BringUp

variable {s : State} {p : Word} {ph q : Phase} {mcrv mcr msr btr v : Word} {tr : List Action} {ts : List Turn}

/-- A read of MCR while CONFIGURE runs (R173). -/
theorem bringUp_readMcr (h : McrRead ph q) :
    Runs 1 (bringUp s p ph mcrv mcr msr btr tr (.seq :: ts))
      (bringUp s p q mcr mcr msr btr (.read .mcr mcr :: tr) ts) :=
  runs_phaseStep rfl (.readMcr rfl h)

/-- A write of MCR while CONFIGURE runs (R173). -/
theorem bringUp_writeMcr (h : McrWrite mcrv ph q v) :
    Runs 1 (bringUp s p ph mcrv mcr msr btr tr (.seq :: ts))
      (bringUp s p q mcrv v msr btr (.write .mcr v :: tr) ts) :=
  runs_phaseStep rfl (.writeMcr rfl h)

/-- A poll that sees its acknowledge (R175). -/
theorem bringUp_poll (h : Poll msr ph q) :
    Runs 1 (bringUp s p ph mcrv mcr msr btr tr (.seq :: ts))
      (bringUp s p q mcrv mcr msr btr (.read .msr msr :: tr) ts) :=
  runs_phaseStep rfl (.poll rfl h)

/-- Polls that do not (R175). -/
theorem bringUp_polls (n : Nat) (h : Poll msr ph ph) :
    Runs n (bringUp s p ph mcrv mcr msr btr tr (List.replicate n .seq ++ ts))
      (bringUp s p ph mcrv mcr msr btr (List.replicate n (.read .msr msr) ++ tr) ts) :=
  runs_polls (s := bringUp s p ph mcrv mcr msr btr tr (List.replicate n .seq ++ ts)) rfl h rfl

/-- The timing write in initialization mode (R174). -/
theorem bringUp_writeBtr (h : fieldBit layout.inak msr = true) :
    Runs 1 (bringUp s p .cfBtrWr mcrv mcr msr btr tr (.seq :: ts))
      (bringUp s p .cfExitRd mcrv mcr msr (btrWord p) (.write .btr (btrWord p) :: tr) ts) := by
  have hstep := PhaseStep.writeBtr (s := bringUp s p .cfBtrWr mcrv mcr msr btr tr ts) rfl rfl
  have hinak : fieldBit layout.inak (bringUp s p .cfBtrWr mcrv mcr msr btr tr ts).periph.msr = true := h
  rw [if_pos hinak] at hstep
  exact runs_phaseStep rfl hstep

/-- A move of PERIPH that changes MSR (R53, R54). -/
theorem bringUp_periph {m : PeriphMove} (hwindow : writesMailbox ph = false)
    (h : ∀ p : Periph, p.mcr = mcr → p.msr = msr → periphMove m p = { p with msr := v }) :
    Runs 1 (bringUp s p ph mcrv mcr msr btr tr (.periph m :: ts)) (bringUp s p ph mcrv mcr v btr tr ts) := by
  refine runs_turn rfl (congrArg Host.Outcome.next ?_)
  rw [periphTurn_enabled (periphEnabled_outside m hwindow), h _ rfl rfl]
  rfl

end BringUp

/-- The acceptance of CONFIGURE as a turn (R171). -/
theorem runs_acceptConfigure {s : State} {clock baud p : Word} {ts : List Turn} (hs : Ready s) (hcfg : s.cfg = false)
    (hcmd : s.cmd = some (encode (.configure clock baud))) (hp : prescaler clock baud = .ok p)
    (hturns : s.turns = .seq :: ts) :
    Runs 1 s { s with cmd := none, result := none, busy := true, pre := p, ph := .cfEn, turns := ts } := by
  have hs' : Ready { s with turns := ts } := hs
  exact runs_turn hturns ((seqStep_of_cmd hs'.1 hcmd (decodeInvertsEncode _)).trans (exec_configure_ok hs' hcfg hp))

/-- From the acceptance to the first read of MCR (R171, R172). -/
theorem runs_toBringUp {s : State} {clock baud p : Word} {ts : List Turn} (hs : Ready s) (hcfg : s.cfg = false)
    (hcmd : s.cmd = some (encode (.configure clock baud))) (hp : prescaler clock baud = .ok p)
    (hturns : s.turns = .seq :: .seq :: .seq :: .seq :: ts) :
    Runs 4 s (bringUp s p .cfWakeRd s.mcrv 0x00010002#32 0x00000C02#32 0x01230000#32
      (.busCtl .rstDeassert :: .busCtl .rstAssert :: .busCtl .en :: s.trace) ts) := by
  have haccept := runs_acceptConfigure hs hcfg hcmd hp hturns
  have henable := runs_then_step haccept rfl (.enable rfl)
  have hassert := runs_then_step henable rfl (.assertReset rfl)
  exact runs_then_step hassert rfl (.deassertReset rfl)

/-- From the first read of MCR to the wake poll (R173). -/
theorem runs_toWakePoll (s : State) (p mcrv : Word) (tr : List Action) (ts : List Turn) :
    Runs 2 (bringUp s p .cfWakeRd mcrv 0x00010002#32 0x00000C02#32 0x01230000#32 tr (.seq :: .seq :: ts))
      (bringUp s p .cfWakePoll 0x00010002#32 0x00010000#32 0x00000C02#32 0x01230000#32
        (.write .mcr 0x00010000#32 :: .read .mcr 0x00010002#32 :: tr) ts) := by
  have hword : wakeWord 0x00010002#32 = 0x00010000#32 := by decide
  exact runs_trans (bringUp_readMcr .wake) (bringUp_writeMcr (hword ▸ .wake))

/-- From the wake poll that sees its acknowledge to the initialization-entry poll (R173, R175). -/
theorem runs_toInitPoll (s : State) (p mcrv btr : Word) (tr : List Action) (ts : List Turn) :
    Runs 3 (bringUp s p .cfWakePoll mcrv 0x00010000#32 0x00000C00#32 btr tr (.seq :: .seq :: .seq :: ts))
      (bringUp s p .cfInitPoll 0x00010000#32 0x00010001#32 0x00000C00#32 btr
        (.write .mcr 0x00010001#32 :: .read .mcr 0x00010000#32 :: .read .msr 0x00000C00#32 :: tr) ts) := by
  have hword : initWord 0x00010000#32 = 0x00010001#32 := by decide
  exact runs_trans (bringUp_poll (.wakeExit (by decide)))
    (runs_trans (bringUp_readMcr .init) (bringUp_writeMcr (hword ▸ .init)))

/-- From the initialization-entry poll that sees its acknowledge to the exit poll (R173 to R175). -/
theorem runs_toExitPoll (s : State) (p mcrv btr : Word) (tr : List Action) (ts : List Turn) :
    Runs 4 (bringUp s p .cfInitPoll mcrv 0x00010001#32 0x00000C01#32 btr tr (.seq :: .seq :: .seq :: .seq :: ts))
      (bringUp s p .cfExitPoll 0x00010001#32 0x00010000#32 0x00000C01#32 (btrWord p)
        (.write .mcr 0x00010000#32 :: .read .mcr 0x00010001#32 :: .write .btr (btrWord p) :: .read .msr 0x00000C01#32 ::
          tr) ts) := by
  have hword : exitWord 0x00010001#32 = 0x00010000#32 := by decide
  exact runs_trans (bringUp_poll (.initExit (by decide))) (runs_trans (bringUp_writeBtr (by decide))
    (runs_trans (bringUp_readMcr .exit) (bringUp_writeMcr (hword ▸ .exit))))

/-- The wake acknowledge while CONFIGURE waits for it (R53). -/
theorem periphMove_ackWake_bringUp (p : Periph) (hmcr : p.mcr = 0x00010000#32) (hmsr : p.msr = 0x00000C02#32) :
    periphMove .ackWake p = { p with msr := 0x00000C00#32 } := by
  have hsleep : fieldBit layout.sleep 0x00010000#32 = false := by decide
  have hword : fieldClear layout.slak 0x00000C02#32 = 0x00000C00#32 := by decide
  rw [periphMove, hmcr, hmsr, hsleep, if_neg Bool.false_ne_true, hword]

/-- The initialization-entry acknowledge while CONFIGURE waits for it (R54). -/
theorem periphMove_ackInit_bringUp (p : Periph) (hmcr : p.mcr = 0x00010001#32) (hmsr : p.msr = 0x00000C00#32) :
    periphMove .ackInit p = { p with msr := 0x00000C01#32 } := by
  have hinrq : fieldBit layout.inrq 0x00010001#32 = true := by decide
  have hword : fieldSet layout.inak 0x00000C00#32 = 0x00000C01#32 := by decide
  rw [periphMove, hmcr, hmsr, hinrq, if_pos rfl, hword]

/-- The initialization-exit acknowledge while CONFIGURE waits for it (R54). -/
theorem periphMove_ackExit_bringUp (p : Periph) (hmcr : p.mcr = 0x00010000#32) (hmsr : p.msr = 0x00000C01#32) :
    periphMove .ackExit p = { p with msr := 0x00000C00#32 } := by
  have hinrq : fieldBit layout.inrq 0x00010000#32 = false := by decide
  have hword : fieldClear layout.inak 0x00000C01#32 = 0x00000C00#32 := by decide
  rw [periphMove, hmcr, hmsr, hinrq, if_neg Bool.false_ne_true, hword]

/-- What CONFIGURE leaves, begun in `s` with the prescaler `p` (R176). -/
def broughtUp (s : State) (p : Word) (tr : List Action) (ts : List Turn) : State :=
  { bringUp s p .idle 0x00010001#32 0x00010000#32 0x00000C00#32 (btrWord p) tr ts with
    cfg := true, result := some .unit, busy := false }

/-- The exit poll that sees its acknowledge (R176). -/
theorem runs_toBroughtUp (s : State) (p : Word) (tr : List Action) (ts : List Turn) :
    Runs 1 (bringUp s p .cfExitPoll 0x00010001#32 0x00010000#32 0x00000C00#32 (btrWord p) tr (.seq :: ts))
      (broughtUp s p (.read .msr 0x00000C00#32 :: tr) ts) :=
  have hleft : initLeft 0x00000C00#32 = true := by decide
  runs_phaseStep rfl (.configured rfl rfl hleft)

/-- R177's trace of CONFIGURE with the values of R170's example, newest action first, on top of `tr`. -/
def configureTrace (p : Word) (a b c : Nat) (tr : List Action) : List Action :=
  .read .msr 0x00000C00#32 :: (List.replicate c (Action.read .msr 0x00000C01#32) ++
    .write .mcr 0x00010000#32 :: .read .mcr 0x00010001#32 :: .write .btr (btrWord p) :: .read .msr 0x00000C01#32 ::
    (List.replicate b (Action.read .msr 0x00000C00#32) ++
      .write .mcr 0x00010001#32 :: .read .mcr 0x00010000#32 :: .read .msr 0x00000C00#32 ::
      (List.replicate a (Action.read .msr 0x00000C02#32) ++
        .write .mcr 0x00010000#32 :: .read .mcr 0x00010002#32 :: .busCtl .rstDeassert :: .busCtl .rstAssert ::
          .busCtl .en :: tr)))

/-- CONFIGURE from its acceptance to its completion, with every external action (R170 to R177). -/
theorem runs_configure {s : State} {clock baud p : Word} {a b c : Nat} {rest : List Turn} (hs : Ready s)
    (hcfg : s.cfg = false) (hcmd : s.cmd = some (encode (.configure clock baud))) (hp : prescaler clock baud = .ok p)
    (hturns : s.turns = List.replicate (6 + a) .seq ++ .periph .ackWake :: (List.replicate (3 + b) .seq ++
      .periph .ackInit :: (List.replicate (4 + c) .seq ++ .periph .ackExit :: .seq :: rest))) :
    Runs (17 + a + b + c) s (broughtUp s p (configureTrace p a b c s.trace) rest) := by
  rw [List.replicate_add, List.replicate_add, List.replicate_add, List.append_assoc, List.append_assoc,
    List.append_assoc] at hturns
  have hwake := runs_trans (runs_toBringUp hs hcfg hcmd hp hturns) (runs_toWakePoll _ _ _ _ _)
  have hwakePolls := runs_trans hwake (bringUp_polls a (.wakeAgain (by decide)))
  have hwakeAck := runs_trans hwakePolls (bringUp_periph rfl periphMove_ackWake_bringUp)
  have hinit := runs_trans hwakeAck (runs_toInitPoll _ _ _ _ _ _)
  have hinitPolls := runs_trans hinit (bringUp_polls b (.initAgain (by decide)))
  have hinitAck := runs_trans hinitPolls (bringUp_periph rfl periphMove_ackInit_bringUp)
  have hexit := runs_trans hinitAck (runs_toExitPoll _ _ _ _ _ _)
  have hexitPolls := runs_trans hexit (bringUp_polls c (.exitAgain (by decide)))
  have hexitAck := runs_trans hexitPolls (bringUp_periph rfl periphMove_ackExit_bringUp)
  have hdone := runs_trans hexitAck (runs_toBroughtUp _ _ _ _)
  have hlength : 4 + 2 + a + 1 + 3 + b + 1 + 4 + c + 1 + 1 = 17 + a + b + c := by omega
  exact hlength ▸ hdone

/-- Settles O34, from the run of CONFIGURE and the state it ends in. -/
theorem configureCompletes : Obligations.ConfigureCompletes := by
  intro s clock baud p a b c rest hs hcfg hcmd hp hturns
  obtain ⟨hlow, hhigh⟩ := prescaler_range hp
  have hbound : params.prescBound = 512 := rfl
  rw [← btrWord_or hlow (by omega)]
  refine ⟨_, runs_configure hs hcfg hcmd hp hturns, rfl, rfl, hs.2.2, rfl, rfl, rfl, rfl, rfl, rfl, rfl, rfl,
    tsrValue_periphAfterReset s.draws, rfl, fun m => ?_, ?_⟩
  · have hbox : getBox (broughtUp s p (configureTrace p a b c s.trace) rest).periph m =
        getBox (periphAfterReset s.draws) m := by fin_cases m <;> rfl
    rw [hbox, getBox_periphAfterReset]
    rfl
  · simp [broughtUp, bringUp, configureTrace]

end Sys2Proof.Proofs

/-! The runs of TRANSMIT: with SEQ alone (R204), and with any turns of PERIPH between its steps (R203, R73). -/

namespace Sys2Proof.Proofs

open Sys2Proof.Machine Sys2Proof.Safety Sys2Proof.Laws

/-- The acceptance of TRANSMIT as a turn (R191). -/
theorem runs_acceptTransmit {s : State} {f : RawFrame} {ts : List Turn} (hs : Ready s) (hcfg : s.cfg = true)
    (hf : LegalFrame f) (hcmd : s.cmd = some (encode (.transmit f))) (hturns : s.turns = .seq :: ts) :
    Runs 1 s { s with cmd := none, result := none, busy := true, fl := f, ph := .txTsrRd, turns := ts } := by
  have hs' : Ready { s with turns := ts } := hs
  exact runs_turn hturns ((seqStep_of_cmd hs'.1 hcmd (decodeInvertsEncode _)).trans (exec_transmit_legal hs' hcfg hf))

/-! SEQ alone. -/

/-- Putting a mailbox back changes nothing (R49). -/
theorem setBox_getBox (p : Periph) (m : MailboxIndex) : setBox p m (getBox p m) = p := by
  fin_cases m <;> rfl

/-- Of two replacements of a mailbox the second counts (R49). -/
theorem setBox_setBox (p : Periph) (m : MailboxIndex) (b b' : Mailbox) :
    setBox (setBox p m b) m b' = setBox p m b' := by
  fin_cases m <;> rfl

/-- The block while TRANSMIT, begun in `s`, writes the frame `f` to mailbox `m`, which now holds `b` (R197 to R201). -/
def sendingTo (s : State) (f : RawFrame) (m : MailboxIndex) (ph : Phase) (b : Mailbox) (tr : List Action)
    (ts : List Turn) : State :=
  { s with
    cmd := none, result := none, busy := true, fl := f, tsrv := tsrValue s.periph, mb := m, ph := ph,
    periph := setBox s.periph m b, trace := tr, turns := ts }

/-- What TRANSMIT, begun in `s`, leaves when it queues the frame `f` in mailbox `m`, which now holds `b` (R202). -/
def queuedIn (s : State) (f : RawFrame) (m : MailboxIndex) (b : Mailbox) (tr : List Action) (ts : List Turn) : State :=
  { sendingTo s f m .idle b tr ts with
    lastTx := .queued m, result := some (.outcome (.queued m)), busy := false }

/-- The status read that selects mailbox `m` (R192, R194). -/
theorem runs_select {s : State} {f : RawFrame} {m : MailboxIndex} {ts : List Turn} (hb : busReady s = true)
    (hm : selectMailbox (tsrValue s.periph) = some m) :
    Runs 1 { s with cmd := none, result := none, busy := true, fl := f, ph := .txTsrRd, turns := .seq :: ts }
      (sendingTo s f m .txDlcWr (getBox s.periph m) (.read .tsr (tsrValue s.periph) :: s.trace) ts) := by
  rw [sendingTo, setBox_getBox]
  exact runs_phaseStep rfl (.selected hb rfl hm)

/-- A data write (R197 to R200). -/
theorem runs_dataWrite {s : State} {f : RawFrame} {m : MailboxIndex} {ph q : Phase} {r : Reg} {v : Word}
    {b b' : Mailbox} {tr : List Action} {ts : List Turn} (hb : busReady s = true) (he : b.mbs = .empty)
    (hq : DataWrite f m b ph q r v b') :
    Runs 1 (sendingTo s f m ph b tr (.seq :: ts)) (sendingTo s f m q b' (.write r v :: tr) ts) := by
  have hbox : getBox (setBox s.periph m b) m = b := getBox_setBox_same _ _ _
  have hstep := PhaseStep.dataWrite (s := sendingTo s f m ph b tr ts) hb (by rw [sendingTo, hbox]; exact he)
    (by rw [sendingTo, hbox]; exact hq)
  have hrun := runs_phaseStep (s := sendingTo s f m ph b tr (.seq :: ts)) rfl hstep
  rw [sendingTo, sendingTo] at hrun ⊢
  rwa [setBox_setBox] at hrun

/-- The request write (R201, R202). -/
theorem runs_request {s : State} {f : RawFrame} {m : MailboxIndex} {b : Mailbox} {tr : List Action} {ts : List Turn}
    (hb : busReady s = true) (he : b.mbs = .empty) :
    Runs 1 (sendingTo s f m .txRqWr b tr (.seq :: ts))
      (queuedIn s f m { b with ti := requestWord f, mbs := .pending } (.write (.ti m) (requestWord f) :: tr) ts) := by
  have hbox : getBox (setBox s.periph m b) m = b := getBox_setBox_same _ _ _
  have hstep := PhaseStep.queued (s := sendingTo s f m .txRqWr b tr ts) hb (by rw [sendingTo, hbox]; exact he) rfl
  have hrun := runs_phaseStep (s := sendingTo s f m .txRqWr b tr (.seq :: ts)) rfl hstep
  rw [sendingTo, sendingTo] at hrun
  rw [queuedIn, sendingTo, sendingTo]
  rwa [setBox_setBox, hbox] at hrun

/-- A mailbox with the frame `f` handed over (R204). -/
def filledBox (f : RawFrame) : Mailbox := ⟨requestWord f, tdtWord f, tdlWord f, tdhWord f, .pending⟩

/-- TRANSMIT with SEQ alone and mailbox `m` the lowest Empty one, from its acceptance to its completion (R204). -/
theorem runs_transmit {s : State} {f : RawFrame} {m : MailboxIndex} {rest : List Turn} (hs : Ready s)
    (hcfg : s.cfg = true) (hb : busReady s = true) (hf : LegalFrame f) (hcmd : s.cmd = some (encode (.transmit f)))
    (he : (getBox s.periph m).mbs = .empty) (hlow : ∀ k, k < m → (getBox s.periph k).mbs = .pending)
    (hturns : s.turns = List.replicate 7 .seq ++ rest) :
    ∃ tr, Runs 7 s (queuedIn s f m (filledBox f) tr rest) := by
  have haccept := runs_acceptTransmit hs hcfg hf hcmd hturns
  have hselect := runs_trans haccept (runs_select hb (selectMailbox_lowest he hlow))
  have hlength := runs_trans hselect (runs_dataWrite hb he .length)
  have hid := runs_trans hlength (runs_dataWrite hb he .identifier)
  have hlowData := runs_trans hid (runs_dataWrite hb he .low)
  have hhighData := runs_trans hlowData (runs_dataWrite hb he .high)
  exact ⟨_, runs_trans hhighData (runs_request hb he)⟩

/-- Settles O42, from the run of TRANSMIT and the state it ends in. -/
theorem transmitFillsMailbox : Obligations.TransmitFillsMailbox := by
  intro s f m rest hs hcfg hb hf hcmd he hlow hturns
  obtain ⟨tr, hrun⟩ := runs_transmit hs hcfg hb hf hcmd he hlow hturns
  have hbox : getBox (queuedIn s f m (filledBox f) tr rest).periph m = filledBox f := getBox_setBox_same _ _ _
  refine ⟨_, hrun, ?_, ?_, fun k hk => getBox_setBox_ne _ _ _ _ hk, setBox_mcr _ _ _, setBox_msr _ _ _,
    setBox_btr _ _ _, rfl, rfl, rfl, rfl, hs.2.2, hcfg, rfl⟩
  · rw [← requestWord_eq, ← tdtWord_eq]
    exact hbox
  · rw [← emptyFlag_eq, emptyFlag_tsrValue, hbox]
    rfl

/-! Any turns of PERIPH between the steps of SEQ. -/

/-- Where TRANSMIT of the frame `f` to mailbox `m` stands after its status read: the phase, the turns SEQ still has to
take, and the writes done, newest first (R197 to R201). -/
inductive Written (f : RawFrame) (m : MailboxIndex) : Phase → Nat → List Action → Prop where
  | nothing : Written f m .txDlcWr 5 []
  | length : Written f m .txIdWr 4 [.write (.tdt m) (tdtWord f)]
  | identifier : Written f m .txDlWr 3 [.write (.ti m) (idWord f), .write (.tdt m) (tdtWord f)]
  | low : Written f m .txDhWr 2
      [.write (.tdl m) (tdlWord f), .write (.ti m) (idWord f), .write (.tdt m) (tdtWord f)]
  | high : Written f m .txRqWr 1
      [.write (.tdh m) (tdhWord f), .write (.tdl m) (tdlWord f), .write (.ti m) (idWord f),
        .write (.tdt m) (tdtWord f)]

/-- While data writes are left, the next of them is due. -/
theorem written_next {f : RawFrame} {m : MailboxIndex} {p : Phase} {n : Nat} {acts : List Action} (b : Mailbox)
    (h : Written f m p (n + 1) acts) (hp : p ≠ .txRqWr) :
    ∃ q r v b', DataWrite f m b p q r v b' ∧ Written f m q n (.write r v :: acts) := by
  cases h with
  | nothing => exact ⟨_, _, _, _, .length, .length⟩
  | length => exact ⟨_, _, _, _, .identifier, .identifier⟩
  | identifier => exact ⟨_, _, _, _, .low, .low⟩
  | low => exact ⟨_, _, _, _, .high, .high⟩
  | high => exact absurd rfl hp

/-- Until the request write SEQ has turns to take. -/
theorem written_pos {f : RawFrame} {m : MailboxIndex} {p : Phase} {n : Nat} {acts : List Action}
    (h : Written f m p n acts) : 0 < n := by
  cases h <;> decide

/-- The phases of the writes are phases of TRANSMIT that write the mailbox (R26). -/
theorem written_phase {f : RawFrame} {m : MailboxIndex} {p : Phase} {n : Nat} {acts : List Action}
    (h : Written f m p n acts) : inTransmit p = true ∧ writesMailbox p = true := by
  cases h <;> decide

/-- How TRANSMIT of the frame `f`, begun with the trace `tr`, ends (R203). -/
def TransmitOutcome (f : RawFrame) (tr : List Action) (s : State) : Prop :=
  ∃ v : Word,
    (selectMailbox v = none ∧ s.trace = .read .tsr v :: tr ∧ s.lastTx = .dropped ∧
      s.result = some (.outcome .dropped)) ∨
    ∃ m : MailboxIndex, selectMailbox v = some m ∧
      s.trace = [Action.write (.ti m) (idWord f ||| 0x1#32), .write (.tdh m) (tdhWord f),
        .write (.tdl m) (tdlWord f), .write (.ti m) (idWord f), .write (.tdt m) (f.len.setWidth 32),
        .read .tsr v] ++ tr ∧
      s.lastTx = .queued m ∧ s.result = some (.outcome (.queued m))

/-- TRANSMIT of the frame `f`, begun with the trace `tr`, with `n` turns of SEQ still to come; where it ends early, the
turns left over find no command. -/
inductive Sending (f : RawFrame) (tr : List Action) : Nat → State → Prop where
  | presented {s : State} (hs : Ready s) (hcfg : s.cfg = true) (hcmd : s.cmd = some (encode (.transmit f)))
      (htr : s.trace = tr) : Sending f tr 7 s
  | reading {s : State} (hph : s.ph = .txTsrRd) (hfl : s.fl = f) (hcmd : s.cmd = none) (htr : s.trace = tr) :
      Sending f tr 6 s
  | writing {s : State} {n : Nat} {acts : List Action} {v : Word} (hw : Written f s.mb s.ph n acts)
      (hm : selectMailbox v = some s.mb) (hfl : s.fl = f) (hcmd : s.cmd = none)
      (htr : s.trace = acts ++ .read .tsr v :: tr) : Sending f tr n s
  | ended {s : State} {n : Nat} (hs : Ready s) (hcfg : s.cfg = true) (hcmd : s.cmd = none)
      (hout : TransmitOutcome f tr s) : Sending f tr n s

section Sending

variable {f : RawFrame} {tr : List Action} {n : Nat} {s : State}

/-- What TRANSMIT has done does not depend on the peripheral and the schedule (R73). -/
theorem sending_elsewhere (h : Sending f tr n s) (p : Periph) (ts : List Turn) :
    Sending f tr n { s with periph := p, turns := ts } := by
  cases h with
  | presented hs hcfg hcmd htr => exact .presented hs hcfg hcmd htr
  | reading hph hfl hcmd htr => exact .reading hph hfl hcmd htr
  | writing hw hm hfl hcmd htr => exact .writing hw hm hfl hcmd htr
  | ended hs hcfg hcmd hout => exact .ended hs hcfg hcmd hout

/-- The status read: a mailbox is selected, or the frame is dropped (R192 to R196). -/
theorem sending_reading (hi : Invariant s) (hph : s.ph = .txTsrRd) (hfl : s.fl = f) (hcmd : s.cmd = none)
    (htr : s.trace = tr) : ∃ t, PhaseStep s t ∧ Sending f tr 5 t ∧ t.turns = s.turns := by
  have htransmit : inTransmit s.ph = true := by rw [hph]; rfl
  obtain ⟨hfault, _⟩ := noFault_of_ne_halt hi (outside_of_inTransmit htransmit).1
  have hcfg := hi.transmitting htransmit
  have hb := busReady_of_cfg hi hcfg
  cases hm : selectMailbox (tsrValue s.periph) with
  | none => exact ⟨_, .dropped hb hph hm, .ended ⟨rfl, rfl, hfault⟩ hcfg hcmd ⟨_, .inl ⟨hm, htr ▸ rfl, rfl, rfl⟩⟩, rfl⟩
  | some m => exact ⟨_, .selected hb hph hm, .writing .nothing hm hfl hcmd (htr ▸ rfl), rfl⟩

/-- A write of the frame: a data write, or the request write, which ends the command (R197 to R202). -/
theorem sending_writing {acts : List Action} {v : Word} (hi : Invariant s) (hw : Written f s.mb s.ph (n + 1) acts)
    (hm : selectMailbox v = some s.mb) (hfl : s.fl = f) (hcmd : s.cmd = none)
    (htr : s.trace = acts ++ .read .tsr v :: tr) :
    ∃ t, PhaseStep s t ∧ Sending f tr n t ∧ t.turns = s.turns := by
  obtain ⟨htransmit, hwrites⟩ := written_phase hw
  obtain ⟨hfault, _⟩ := noFault_of_ne_halt hi (outside_of_inTransmit htransmit).1
  have hcfg := hi.transmitting htransmit
  have hb := busReady_of_cfg hi hcfg
  have he := hi.boxEmpty hwrites
  by_cases hph : s.ph = .txRqWr
  · refine ⟨_, .queued hb he hph, .ended ⟨rfl, rfl, hfault⟩ hcfg hcmd ⟨v, .inr ⟨s.mb, hm, ?_, rfl, rfl⟩⟩, rfl⟩
    rw [hph] at hw
    cases hw with
    | high =>
      rw [← requestWord_eq, ← tdtWord_eq, ← hfl]
      exact congrArg _ (htr.trans (hfl ▸ rfl))
  · obtain ⟨q, r, w, b, hwrite, hnext⟩ := written_next (getBox s.periph s.mb) hw hph
    exact ⟨_, .dataWrite hb he (hfl.symm ▸ hwrite), .writing hnext hm hfl hcmd (congrArg _ htr), rfl⟩

/-- A turn of SEQ takes TRANSMIT one step on. -/
theorem sending_seqStep (hf : LegalFrame f) (hi : Invariant s) (h : Sending f tr (n + 1) s) :
    ∃ t, seqStep s = .next t ∧ Sending f tr n t ∧ t.turns = s.turns := by
  cases h with
  | presented hs hcfg hcmd htr =>
    have haccept := (seqStep_of_cmd hs.1 hcmd (decodeInvertsEncode _)).trans (exec_transmit_legal hs hcfg hf)
    exact ⟨_, haccept, .reading rfl rfl rfl htr, rfl⟩
  | reading hph hfl hcmd htr =>
    obtain ⟨t, hstep, hrest⟩ := sending_reading hi hph hfl hcmd htr
    exact ⟨t, hstep.seqStep_eq, hrest⟩
  | writing hw hm hfl hcmd htr =>
    obtain ⟨t, hstep, hrest⟩ := sending_writing hi hw hm hfl hcmd htr
    exact ⟨t, hstep.seqStep_eq, hrest⟩
  | ended hs hcfg hcmd hout => exact ⟨s, seqStep_of_no_cmd hs.1 hcmd, .ended hs hcfg hcmd hout, rfl⟩

/-- A turn of SEQ or PERIPH takes TRANSMIT one step on or leaves it where it stands. -/
theorem sending_runTurn {t : Turn} {ts : List Turn} (hf : LegalFrame f) (hi : Invariant s)
    (ht : quietTurn t = true) (h : Sending f tr ((t :: ts).count .seq) s) :
    ∃ u, runTurn t s = .next u ∧ Sending f tr (ts.count .seq) u ∧ u.turns = s.turns := by
  cases t with
  | host m => cases ht
  | seq =>
    rw [List.count_cons_self] at h
    exact sending_seqStep hf hi h
  | periph m =>
    have hne : Turn.periph m ≠ .seq := nofun
    rw [List.count_cons_of_ne hne] at h
    exact ⟨periphTurn m s, rfl, periphTurn_frame m s ▸ sending_elsewhere h _ _, periphTurn_frame m s ▸ rfl⟩

/-- TRANSMIT under any turns of SEQ and PERIPH. -/
theorem runs_sending {ts rest : List Turn} (hf : LegalFrame f) (hi : Invariant s)
    (h : Sending f tr (ts.count .seq) s) (hturns : s.turns = ts ++ rest) (hquiet : ∀ t ∈ ts, quietTurn t = true) :
    ∃ u, Runs ts.length s u ∧ Sending f tr 0 u ∧ u.turns = rest := by
  induction ts generalizing s with
  | nil => exact ⟨s, rfl, h, hturns⟩
  | cons t ts ih =>
    obtain ⟨ht, hts⟩ := List.forall_mem_cons.mp hquiet
    have hi' : Invariant { s with turns := ts ++ rest } := { hi with }
    obtain ⟨u, hturn, hsent, hleft⟩ := sending_runTurn hf hi' ht (sending_elsewhere h s.periph (ts ++ rest))
    obtain ⟨u', hturn', hu⟩ := invariant_runTurn hi' t
    obtain rfl : u = u' := Host.Outcome.next.inj (hturn.symm.trans hturn')
    obtain ⟨w, hrun, hdone⟩ := ih hu hsent hleft hts
    rw [List.length_cons, Nat.add_comm]
    exact ⟨w, runs_trans (runs_turn hturns hturn) hrun, hdone⟩

end Sending

/-- Settles O43, by induction on the turns: with none of SEQ's left TRANSMIT has ended. -/
theorem transmitTraceUnderInterleaving : Obligations.TransmitTraceUnderInterleaving := by
  intro s f ts rest hi hs hcfg hf hcmd hturns hquiet hcount
  have hstart : Sending f s.trace (ts.count .seq) s := hcount ▸ .presented hs hcfg hcmd rfl
  obtain ⟨u, hrun, hsent, hleft⟩ := runs_sending hf hi hstart hturns hquiet
  cases hsent with
  | writing hw => exact absurd (written_pos hw) (Nat.lt_irrefl 0)
  | ended hs hcfg _ hout =>
    obtain ⟨hph, hbusy, hfault⟩ := hs
    exact ⟨u, hrun, hbusy, hph, hfault, hcfg, hleft, hout⟩

end Sys2Proof.Proofs
